-- ==== Sys2Proof/Word.lean ====
section
/-! DEFINITION. The words of the VB4216: bytes, station, region, cell and group numbers, versions, sequences. -/

namespace Sys2Proof

/-- A byte of a frame, of a port transaction or of a cell's data. -/
abbrev Byte := BitVec 8

/-- A station number, 0 to 15 (00_scope.md, Indices). -/
abbrev Station := Fin 16

/-- A region index, 0 to 15 (R1, R36). -/
abbrev Region := Fin 16

/-- A cell index, 0 to 255 (R1). -/
abbrev CellIx := Fin 256

/-- A SNAPCELLS group, 0 to 31 (R104). -/
abbrev Group := Fin 32

/-- A ticket number, 0 to 15 (R182). -/
abbrev TicketNo := Fin 16

/-- A 32-bit cell version (R2). -/
abbrev Version := BitVec 32

/-- An 8-bit frame sequence (R164). -/
abbrev Seq := BitVec 8

/-- The 32 data bytes of a cell (R1). -/
abbrev CellData := Vector Byte 32

/-- Sixteen flags, one per station (or per region), station k at bit k: the ack map (R151), the required set
(R167), the member set (R189), the foreign-reported set (R32), the tried set (R117), the watch set (R135). -/
abbrev Flags16 := BitVec 16

end Sys2Proof
end

