-- ==== Sys2Proof/Syntax.lean ====
section
/-! DEFINITION. The frames and the line bytes of the station bus as data, and the commands: one constructor of `Instr` per
row of spec/opcode_table.json. -/

namespace Sys2Proof

/-- The header fields that every frame has beside its kind and target (12_wire_and_port_formats.md, 12.1). -/
structure FrameHead where
  sender : Station
  repeated : Bool
  seq : Seq
deriving DecidableEq, Repr

/-- The reason a DROP carries (R194). -/
inductive DropReason where
  | silent
  | noAck
deriving DecidableEq, Repr

/-- One record of a WRITE fragment: a cell, its carried version and its 32 data bytes (R61). -/
structure WriteRecord where
  cell : CellIx
  version : Version
  data : CellData
deriving DecidableEq, Repr

/-- The payload of a WRITE fragment with its more flag (R61). The record count is the list's length. -/
structure WriteBody where
  more : Bool
  index : Nat
  count : Nat
  records : List WriteRecord
deriving DecidableEq, Repr

/-- The state of a Membership Table entry (R78). -/
inductive EntryState where
  | absent
  | joining
  | member
deriving DecidableEq, Repr

/-- One Membership Table entry, and one entry of a membership image (R78). -/
structure MemberEntry where
  state : EntryState
  lastSeq : Seq
  sponsor : Option Station
  joinPlace : Option Nat
deriving DecidableEq, Repr

/-- One Lock Table entry, and one entry of a lock image: holder and waiter queue, oldest first (R36). -/
structure RegionEntry where
  holder : Option Station
  waiters : List Station
deriving DecidableEq, Repr

/-- The two images of a SNAPSTATE (R103). -/
structure Images where
  members : Vector MemberEntry 16
  locks : Vector RegionEntry 16
deriving DecidableEq, Repr

/-- One record of a SNAPCELLS frame (R104). -/
inductive SnapRecord where
  | present (version : Version) (data : CellData)
  | missing
deriving DecidableEq, Repr

/-- The result of a MENDREPLY: DATA with version and data, or NONE (R122). -/
inductive MendAnswer where
  | data (version : Version) (bytes : CellData)
  | noCopy
deriving DecidableEq, Repr

/-- A frame's kind with its target and payload (12.1, 12.2). Kinds whose target is FFh carry none. -/
inductive Body where
  | presence
  | join (rejoin : Bool)
  | leave
  | drop (target : Station) (reason : DropReason)
  | claim (region : Region)
  | yield (region : Region)
  | write (w : WriteBody)
  | snapState (target : Station) (images : Images)
  | snapCells (target : Station) (group : Group) (records : Vector SnapRecord 8)
  | mend (target : Station) (cell : CellIx)
  | mendReply (target : Station) (cell : CellIx) (answer : MendAnswer)
  | signal (target : Option Station) (bytes : List Byte)
deriving DecidableEq, Repr

/-- A frame. -/
structure Frame where
  head : FrameHead
  body : Body
deriving DecidableEq, Repr

/-- A level of the bus as a receiver samples it (R140). -/
inductive Level where
  | driven
  | released
deriving DecidableEq, Repr

/-- The ten bit times of one byte on the line as sampled: start bit, the eight data bits in order of arrival, stop bit
(R141). -/
structure LineByte where
  start : Level
  data : Vector Level 8
  stop : Level
deriving DecidableEq, Repr

/-- What a receiver sampled after the mark closing, up to carrier end: the ten bit times of each byte, in order of
arrival (R141, R142). -/
structure Heard where
  line : List LineByte
deriving DecidableEq, Repr

/-- The commands, one per row of spec/opcode_table.json, in its order. -/
inductive Instr where
  /-- RESET: reset is applied (R154). -/
  | reset
  /-- RESET_RELEASE: reset is released and the straps are read (R188). -/
  | resetRelease (number : Station) (rate : Fin 4)
  /-- POLL: a transaction with first byte 00h and `extra` whole bytes after it (R177). -/
  | poll (extra : Nat)
  /-- FETCH: a transaction with first byte 80h and `extra` whole bytes after it (R180). -/
  | fetch (extra : Nat)
  /-- REQUEST_TRANSACTION: a transaction whose whole bytes received on SDI are `sdi` (R179). -/
  | requestTransaction (sdi : List Byte)
  /-- STATUS: the check point of a STATUS in hand (R189). -/
  | status
  /-- CONFIGURE: the check point of a CONFIGURE in hand (R188). -/
  | configure
  /-- READ_CELLS: the read point of a READ_CELLS in hand (R17). -/
  | readCells
  /-- STAGE_CELL: the check point of a STAGE_CELL in hand (R58). -/
  | stageCell
  /-- UNSTAGE_CELL: the check point of an UNSTAGE_CELL in hand (R59). -/
  | unstageCell
  /-- DISCARD_DRAFT: the check point of a DISCARD_DRAFT in hand (R59). -/
  | discardDraft
  /-- TAKE_NOTICE: the check point of a TAKE_NOTICE in hand (R185). -/
  | takeNotice
  /-- SET_WATCH: the check point of a SET_WATCH in hand (R135). -/
  | setWatch
  /-- READ_REGION: the check point of a READ_REGION in hand (R54). -/
  | readRegion
  /-- READ_MEMBERS: the check point of a READ_MEMBERS in hand (R97). -/
  | readMembers
  /-- JOIN: the check point of a JOIN in hand (R79). -/
  | join
  /-- LEAVE: the check point of a LEAVE in hand (R86). -/
  | leave
  /-- CLAIM: the check point of a CLAIM in hand (R45). -/
  | claim
  /-- RELEASE: the check point of a RELEASE in hand (R46). -/
  | release
  /-- WITHDRAW: the check point of a WITHDRAW in hand (R48). -/
  | withdraw
  /-- COMMIT: the check point of a COMMIT in hand (R60). -/
  | commit
  /-- SIGNAL: the check point of a SIGNAL in hand (R130). -/
  | signal
  /-- UNASSIGNED_REQUEST: the check point of a request whose code is assigned to none (R179). -/
  | unassignedRequest
  /-- CARRIER_BEGIN: a driven run of `halfBits` half bit times on the idle bus, after an idle slot or not (R144). -/
  | carrierBegin (halfBits : Nat) (idleSlot : Bool)
  /-- TRANSMISSION_START: the first moment at which a frame may start, within `slots` more whole slots (R159). -/
  | transmissionStart (slots : Nat)
  /-- PRESENCE_FRAME: carrier end of a PRESENCE (R92). -/
  | presenceFrame (head : FrameHead)
  /-- JOIN_FRAME: carrier end of a JOIN (R81). -/
  | joinFrame (head : FrameHead) (rejoin : Bool)
  /-- LEAVE_FRAME: carrier end of a LEAVE (R87). -/
  | leaveFrame (head : FrameHead)
  /-- DROP_FRAME: carrier end of a DROP (R89). -/
  | dropFrame (head : FrameHead) (target : Station) (reason : DropReason)
  /-- CLAIM_FRAME: carrier end of a CLAIM (R38). -/
  | claimFrame (head : FrameHead) (region : Region)
  /-- YIELD_FRAME: carrier end of a YIELD (R40). -/
  | yieldFrame (head : FrameHead) (region : Region)
  /-- WRITE_FRAME: carrier end of a WRITE fragment (R65). -/
  | writeFrame (head : FrameHead) (w : WriteBody)
  /-- SNAPSTATE_FRAME: carrier end of a SNAPSTATE (R108). -/
  | snapStateFrame (head : FrameHead) (target : Station) (images : Images)
  /-- SNAPCELLS_FRAME: carrier end of a SNAPCELLS (R111). -/
  | snapCellsFrame (head : FrameHead) (target : Station) (group : Group) (records : Vector SnapRecord 8)
  /-- MEND_FRAME: carrier end of a MEND (R121). -/
  | mendFrame (head : FrameHead) (target : Station) (cell : CellIx)
  /-- MENDREPLY_FRAME: carrier end of a MENDREPLY (R123). -/
  | mendReplyFrame (head : FrameHead) (target : Station) (cell : CellIx) (answer : MendAnswer)
  /-- SIGNAL_FRAME: carrier end of a SIGNAL (R132). -/
  | signalFrame (head : FrameHead) (target : Option Station) (bytes : List Byte)
  /-- DAMAGED_FRAME: carrier end of a carrier that the receive checks judge from the levels sampled (R28, R141,
  R146). -/
  | damagedFrame (heard : Heard)
  /-- COLLISION: an echo mismatch, its collision mark and the carrier end that follows (R149). -/
  | collision (startMark : Bool) (heard : Heard)
  /-- ACK_WINDOW_END: the end of an ack window whose sampled positions are `map` (R151). -/
  | ackWindowEnd (map : Flags16)
  /-- LISTEN_TIMER_EXPIRY (R77). -/
  | listenTimerExpiry
  /-- SILENCE_TIMER_EXPIRY of one peer's timer (R91). -/
  | silenceTimerExpiry (peer : Station)
  /-- PRESENCE_TIMER_EXPIRY (R92). -/
  | presenceTimerExpiry
  /-- MEND_WINDOW_EXPIRY (R124). -/
  | mendWindowExpiry
  /-- HOLD_OFF_EXPIRY (R161). -/
  | holdOffExpiry
  /-- STORAGE_UPSET of one cell, with the content the disturbance leaves (R6). -/
  | storageUpset (cell : CellIx) (version : Version) (data : CellData) (check : BitVec 16)
deriving DecidableEq, Repr

end Sys2Proof
end

