-- ==== Sys2Proof/Config.lean ====
section
/-! DEFINITION. The values fixed in the part (00_scope.md, Fixed time values and Fixed counts). Every time is in
slots. The spec leaves no value of a step open, so there is no free value here. -/

namespace Sys2Proof.Config

/-- The repeat gap (00_scope.md, R158). -/
def repeatGapSlots : Nat := 2
/-- The follow-on gap (00_scope.md, R158). -/
def followOnGapSlots : Nat := 4
/-- The presence interval (R92). -/
def presenceInterval : Nat := 4096
/-- The silence limit (R91). -/
def silenceLimit : Nat := 16384
/-- The listen period (R77). -/
def listenPeriod : Nat := 16384
/-- The mend window (R117). -/
def mendWindow : Nat := 8192
/-- The line-fault hold-off (R161). -/
def holdOffSlots : Nat := 16384
/-- The collision limit (R160, R161). -/
def collisionLimit : Nat := 8
/-- The notice queue's entries (R184). -/
def noticeCapacity : Nat := 32
/-- The draft's cells (R57). -/
def draftCapacity : Nat := 32
/-- The MENDREPLY part of the service queue (R163). -/
def mendReplyCapacity : Nat := 8
/-- The records of a full WRITE fragment (R61). -/
def fragmentRecords : Nat := 8
/-- The largest payload of a frame (R142). -/
def maxPayload : Nat := 320
/-- The largest frame, and so the byte-assembly buffer (R145). -/
def maxFrameBytes : Nat := 329

end Sys2Proof.Config
end

