-- ==== Sys2Proof/Machine/Checks.lean ====
section
/-! DEFINITION. The checks a receiver makes on a frame's fields beyond its cyclic codes: ranges and target of R193
and R194, the internal agreements of a WRITE (R67) and of a SNAPSTATE's images (R107). -/

namespace Sys2Proof.Machine

/-- A single-station target is not the sender (R193). -/
def targetOk (sender target : Station) : Bool := target != sender

/-- No cell is named twice in one fragment (R67). -/
def distinctCells (recs : List WriteRecord) : Bool := decide (recs.map (·.cell)).Nodup

/-- The agreements among a WRITE's fields (R67). -/
def writeOk (w : WriteBody) : Bool :=
  decide (w.index < w.count) && decide (w.count ≤ 4)
    && decide (1 ≤ w.records.length) && decide (w.records.length ≤ Config.fragmentRecords)
    && (w.more == decide (w.index + 1 ≠ w.count))
    && (!w.more || w.records.length == Config.fragmentRecords)
    && distinctCells w.records

/-- Every field of the two images lies in its range: join places 0 to 14 or none, waiter counts 15 or less (R194). -/
def imagesInRange (im : Images) : Bool :=
  im.members.toList.all (fun e => e.joinPlace.all (· ≤ 14))
    && im.locks.toList.all (fun e => decide (e.waiters.length ≤ 15))

/-- The checks every receiver makes on a frame's fields (R193, R194, R67). -/
def frameInRange (f : Frame) : Bool :=
  match f.body with
  | .presence | .join _ | .leave | .claim _ | .yield _ => true
  | .drop t _ => targetOk f.head.sender t
  | .write w => writeOk w
  | .snapState t im => targetOk f.head.sender t && imagesInRange im
  | .snapCells t _ _ => targetOk f.head.sender t
  | .mend t _ => targetOk f.head.sender t
  | .mendReply t _ _ => targetOk f.head.sender t
  | .signal t bytes =>
      t.all (targetOk f.head.sender) && decide (1 ≤ bytes.length) && decide (bytes.length ≤ 8)

/-- The stations whose entry is JOINING. -/
def joiningCount (t : Vector MemberEntry 16) : Nat := t.toList.countP (·.state == .joining)

/-- The membership image agrees with itself and with the frame's target and sender (R107). -/
def memberImageOk (sender target : Station) (t : Vector MemberEntry 16) : Bool :=
  t[target].state == .joining && t[target].sponsor == some sender
    && t[sender].state == .member
    && t.toList.all (fun e => match e.state with
        | .joining => match e.sponsor with
          | some y => t[y].state == .member
          | none => false
        | _ => e.sponsor == none && e.joinPlace == none)
    && (List.range (joiningCount t)).all (fun p =>
        t.toList.countP (fun e => e.state == .joining && e.joinPlace == some p) == 1)

/-- A lock image entry agrees with the membership image (R107, R55). -/
def lockEntryOk (t : Vector MemberEntry 16) (e : RegionEntry) : Bool :=
  e.holder.all (fun h => t[h].state == .member && !e.waiters.contains h)
    && e.waiters.all (fun w => t[w].state == .member)
    && decide e.waiters.Nodup
    && decide (e.waiters.length ≤ 15)
    && (e.holder.isSome || e.waiters.isEmpty)

/-- The agreement of a SNAPSTATE's two images with each other (R107). -/
def imagesAgree (sender target : Station) (im : Images) : Bool :=
  memberImageOk sender target im.members && im.locks.toList.all (lockEntryOk im.members)

/-- Every field check the station numbered `n` makes: those of every receiver, and the agreement of the images of a
SNAPSTATE whose target it is (R146). -/
def frameOkAt (n : Station) (f : Frame) : Bool :=
  frameInRange f && match f.body with
    | .snapState t im => t != n || imagesAgree f.head.sender t im
    | _ => true

end Sys2Proof.Machine
end

