-- ==== Sys2Proof/Machine/Codes.lean ====
section
/-! DEFINITION. The three cyclic codes (R195) and the byte-order helpers of the formats (R193, R196). -/

namespace Sys2Proof.Machine

/-- The four bytes of a version, most significant first (R193). -/
def versionBytes (v : Version) : List Byte :=
  [v.extractLsb' 24 8, v.extractLsb' 16 8, v.extractLsb' 8 8, v.extractLsb' 0 8]

/-- A version from its four bytes, most significant first (R193). -/
def versionOfBytes (a b c d : Byte) : Version := a ++ b ++ c ++ d

/-- The two bytes of a 16-bit value, most significant first (R193, R196). -/
def wordBytes (w : BitVec 16) : List Byte := [w.extractLsb' 8 8, w.extractLsb' 0 8]

/-- One bit into the register of the header check, generator x^8 + x^2 + x + 1 (R195). -/
def headerCheckBit (r : Byte) (b : Bool) : Byte :=
  if r.msb != b then (r <<< 1) ^^^ 0x07#8 else r <<< 1

/-- One bit into the register of the payload and cell checks, generator x^16 + x^12 + x^5 + 1 (R195). -/
def payloadCheckBit (r : BitVec 16) (b : Bool) : BitVec 16 :=
  if r.msb != b then (r <<< 1) ^^^ 0x1021#16 else r <<< 1

/-- The bits of a byte, most significant first (R195). -/
def bitsMsbFirst (b : Byte) : List Bool :=
  [b.getLsbD 7, b.getLsbD 6, b.getLsbD 5, b.getLsbD 4, b.getLsbD 3, b.getLsbD 2, b.getLsbD 1, b.getLsbD 0]

/-- The header check over header bytes, register preset FFh (R195). -/
def headerCheck (bytes : List Byte) : Byte :=
  (bytes.flatMap bitsMsbFirst).foldl headerCheckBit 0xFF#8

/-- The payload check, register preset FFFFh (R195). -/
def payloadCheck (bytes : List Byte) : BitVec 16 :=
  (bytes.flatMap bitsMsbFirst).foldl payloadCheckBit 0xFFFF#16

/-- The cell check over the 4 version bytes and the 32 data bytes (R3, R195). -/
def cellCheck (v : Version) (d : CellData) : BitVec 16 := payloadCheck (versionBytes v ++ d.toList)

/-- The all-zero data of reset (R18), and of a missing record or a NONE reply (R194). -/
def zeroData : CellData := Vector.replicate 32 0#8

end Sys2Proof.Machine
end

