-- ==== Sys2Proof/Machine/State.lean ====
section
/-! DEFINITION. The state of one VB4216 station, block by block, as plain data; its value at reset; the reasons a
step can stop (there are none). -/

namespace Sys2Proof.Machine

/-- A cell's status (R4). -/
inductive CellStatus where
  | absent
  | present
  | damaged
  | stale
deriving DecidableEq, Repr

/-- One cell record but for its data, which stand in `State.mem` (R1); `upset` says that a storage upset of the cell
is outstanding (R6). -/
structure CellRec where
  version : Version
  check : BitVec 16
  status : CellStatus
  fresh : Bool
  upset : Bool
deriving DecidableEq, Repr

/-- The cell data as (address, byte) pairs, addresses rising, no entry equal to the 00h that an unlisted address
reads as (R18). Cell c's byte i has address 32c + i. -/
abbrev Memory := List Host.Cell

/-- The local station state (R76). -/
inductive StationState where
  | unconfigured
  | outside
  | joinSent
  | awaitState
  | filling
  | member
  | leaving
deriving DecidableEq, Repr

/-- The doubt state (R28). -/
inductive Doubt where
  | clear
  | unknown
  | known (sender : Station) (seq : Seq)
deriving DecidableEq, Repr

/-- A staged incoming bundle (R65). -/
structure Staging where
  sender : Station
  count : Nat
  expected : Nat
  records : List WriteRecord
deriving DecidableEq, Repr

/-- The Apply Unit's own state (R35). -/
structure ApplyUnit where
  doubt : Doubt
  foreign : Flags16
  staging : Option Staging
deriving DecidableEq, Repr

/-- The Membership block: station state, table, timers (slots still to run, or stopped), listening condition,
departed mark and the two settings of CONFIGURE (R76, R78, R98). -/
structure Membership where
  state : StationState
  table : Vector MemberEntry 16
  silence : Vector (Option Nat) 16
  presence : Option Nat
  listen : Option Nat
  listening : Bool
  departed : Bool
  repeatLimit : Option Nat
  autoRejoin : Option Bool
deriving DecidableEq, Repr

/-- The Sponsor Unit (R99). -/
structure SponsorUnit where
  joiners : List Station
  cursor : Nat
deriving DecidableEq, Repr

/-- One staged cell of the draft (R57). -/
structure DraftEntry where
  cell : CellIx
  data : CellData
deriving DecidableEq, Repr

/-- A committed bundle in the outgoing bundle buffer (R57). -/
structure Outgoing where
  entries : List DraftEntry
  ticket : TicketNo
  next : Nat
deriving DecidableEq, Repr

/-- The Draft and Bundle Unit (R57). -/
structure BundleUnit where
  draft : List DraftEntry
  outgoing : Option Outgoing
deriving DecidableEq, Repr

/-- The fields of the current mend beside its cell, which is the head of the mend list (R117, log 28). -/
structure CurrentMend where
  responder : Station
  tried : Flags16
  window : Option Nat
deriving DecidableEq, Repr

/-- The Mend Unit (R117). -/
structure MendUnit where
  cells : List CellIx
  current : Option CurrentMend
deriving DecidableEq, Repr

/-- The kind of a deferred request (R182). -/
inductive RequestKind where
  | join
  | leave
  | claim
  | release
  | withdraw
  | commit
  | signal
deriving DecidableEq, Repr

/-- The state of a ticket in use (R182). -/
inductive TicketState where
  | queued
  | sending
  | waiting
  | done
deriving DecidableEq, Repr

/-- The argument a ticket keeps (R182); a signal's target of none is "all". -/
inductive TicketArg where
  | none
  | region (r : Region)
  | target (t : Option Station)
deriving DecidableEq, Repr

/-- A ticket in use (R182). -/
structure Ticket where
  kind : RequestKind
  state : TicketState
  arg : TicketArg
  link : Option TicketNo
deriving DecidableEq, Repr

/-- The outcome of a completed ticket (R183). -/
inductive Completion where
  | done
  | granted
  | withdrawn
  | released
  | applied
  | refused
  | delivered
  | notDelivered
  | cancelled
  | lost
  | joined
  | founded
deriving DecidableEq, Repr

/-- The reason of a departure (R93). -/
inductive DepartReason where
  | leave
  | dropped
  | isolated
  | outOfStep
  | noSponsor
deriving DecidableEq, Repr

/-- The reason of a MEMBER_OUT (R185). -/
inductive OutReason where
  | silent
  | noAck
  | leave
  | rejoin
  | restart
deriving DecidableEq, Repr

/-- A notice record (R185). -/
inductive Notice where
  | completion (ticket : TicketNo) (kind : RequestKind) (outcome : Completion)
  | changed (region : Region) (writer : Station) (repeated : Bool)
  | signalIn (sender : Station) (bytes : List Byte)
  | memberIn (station : Station)
  | memberOut (station : Station) (reason : OutReason)
  | leftGroup (reason : DepartReason)
  | cellLost (cell : CellIx)
  | foreign (station : Station)
  | lineFault
deriving DecidableEq, Repr

/-- The result codes (R190). -/
inductive ResultCode where
  | ok
  | accepted
  | pending
  | none
  | framing
  | badRequest
  | badArg
  | wrongState
  | notHolder
  | notWaiting
  | already
  | draftFull
  | draftOpen
  | bundlePending
  | noTicket
  | noTarget
  | empty
deriving DecidableEq, Repr

/-- A response: result code and body (R180). -/
structure Response where
  code : ResultCode
  body : List Byte
deriving DecidableEq, Repr

/-- A request in hand: request code and argument bytes (R179). -/
structure Request where
  code : Byte
  args : List Byte
deriving DecidableEq, Repr

/-- The port state, with the request in hand or the held response (R178). -/
inductive PortPhase where
  | idle
  | working (request : Request)
  | holding (response : Response)
deriving DecidableEq, Repr

/-- The Host Port (R178, R182, R184, R135). `order` lists the tickets in use in acceptance order (log 28); `sdo` is
what SDO carried in the last transaction (log 11). -/
structure HostPort where
  phase : PortPhase
  refusedLast : Bool
  noticesDropped : Bool
  tickets : Vector (Option Ticket) 16
  order : List TicketNo
  notices : List Notice
  watch : Flags16
  sdo : List Byte
deriving DecidableEq, Repr

/-- The Bus Interface's states (R143). -/
inductive BusState where
  | idle
  | receiving
  | sending
  | ackWindow
deriving DecidableEq, Repr

/-- The header check of the frame being heard (R145). -/
inductive HeaderVerdict where
  | notMade
  | passes
  | fails
deriving DecidableEq, Repr

/-- The record of the receive checks (R145). -/
structure ReceiveRecord where
  startMark : Bool
  framed : Nat
  unframed : Bool
  header : HeaderVerdict
deriving DecidableEq, Repr

/-- What the last carrier end was to this station's transmitter: a frame of another station, an own frame with a good
echo, or a collision report (R148, R149, log 13). -/
inductive EndReport where
  | heard
  | ownGood
  | collided
deriving DecidableEq, Repr

/-- The Bus Interface (R143, R145, R151, R150). -/
structure BusInterface where
  state : BusState
  buffer : List Byte
  record : ReceiveRecord
  ackMap : Flags16
  ackDrive : Bool
  report : EndReport
deriving DecidableEq, Repr

/-- The Access Timer (R156, R158, R160, R161). -/
structure AccessTimer where
  reference : Option Station
  gapCount : Nat
  collisions : Nat
  holdOff : Option Nat
deriving DecidableEq, Repr

/-- What a host send list entry becomes (R162). -/
inductive SendFrame where
  | claim (region : Region)
  | yield (region : Region)
  | commit
  | join
  | leave
  | signal (target : Option Station) (bytes : List Byte)
deriving DecidableEq, Repr

/-- An entry of the host send list; only the JOIN of auto-rejoin has no ticket (R162). -/
structure SendEntry where
  ticket : Option TicketNo
  frame : SendFrame
deriving DecidableEq, Repr

/-- The class of a queued DROP (R163). -/
inductive DropClass where
  | turn
  | settlement
deriving DecidableEq, Repr

/-- An entry of the DROP part of the service queue (R163). -/
structure DropEntry where
  target : Station
  reason : DropReason
  cls : DropClass
deriving DecidableEq, Repr

/-- An entry of the MENDREPLY part of the service queue (R163). -/
structure ReplyEntry where
  requester : Station
  cell : CellIx
deriving DecidableEq, Repr

/-- The entry of the MEND slot of the service queue (R163). -/
structure MendEntry where
  responder : Station
  cell : CellIx
deriving DecidableEq, Repr

/-- The gap a transmission needs (R158). -/
inductive GapKind where
  | repeatGap
  | followOn
  | turn
deriving DecidableEq, Repr

/-- The unsettled-frame slot's content (R164), with the ticket that rides on the frame and, for a SIGNAL to one
station, whether that station stands in the required set (R131). -/
structure Slot where
  frame : Frame
  required : Flags16
  repeats : Nat
  heard : Bool
  gap : GapKind
  ticket : Option TicketNo
  targetIn : Bool
deriving DecidableEq, Repr

/-- The source that supplied the last frame of a turn shared by snapshot work and host send list (R165). -/
inductive Source where
  | snapshot
  | hostList
deriving DecidableEq, Repr

/-- The Transmit Selector (R162 to R165). -/
structure Transmit where
  sendList : List SendEntry
  drops : List DropEntry
  replies : List ReplyEntry
  mend : Option MendEntry
  presence : Bool
  slot : Option Slot
  seq : Seq
  lastSource : Source
deriving DecidableEq, Repr

/-- The straps as read at reset release, and whether reset is applied (R154, R188). -/
structure Straps where
  number : Station
  rate : Fin 4
  inReset : Bool
deriving DecidableEq, Repr

/-- The state of one station: the queue of waiting commands and the station's blocks. -/
structure State where
  pending : List Instr
  straps : Straps
  mem : Memory
  cells : Vector CellRec 256
  apply : ApplyUnit
  locks : Vector RegionEntry 16
  mship : Membership
  sponsor : SponsorUnit
  bundle : BundleUnit
  mend : MendUnit
  port : HostPort
  bus : BusInterface
  access : AccessTimer
  tx : Transmit
deriving DecidableEq, Repr

/-- The reasons a step can stop with a fault: none. The spec gives every command an effect in every state, and a
command whose event cannot occur leaves the state as it is (log 3, log 25). Nothing raises one. -/
inductive Fault where
deriving DecidableEq, Repr

/-- The reasons a command can be refused. -/
inductive Refusal where
  /-- A command that has no meaning in the model yet; exec's arm raises it (none does). Safe: the machine stops. -/
  | notModelled (mnemonic : String)
deriving DecidableEq, Repr

/-- A cell after reset (R18). -/
def CellRec.reset : CellRec :=
  { version := 0, check := cellCheck 0 zeroData, status := .absent, fresh := false, upset := false }

/-- An ABSENT Membership Table entry (R78). -/
def absentEntry : MemberEntry := { state := .absent, lastSeq := 0, sponsor := none, joinPlace := none }

/-- A free region (R36, R55). -/
def freeRegion : RegionEntry := { holder := none, waiters := [] }

/-- The Membership block after reset (R98). -/
def Membership.reset : Membership :=
  { state := .unconfigured, table := Vector.replicate 16 absentEntry, silence := Vector.replicate 16 none,
    presence := none, listen := none, listening := false, departed := false, repeatLimit := none,
    autoRejoin := none }

/-- The Host Port after reset (R192, R135). -/
def HostPort.reset : HostPort :=
  { phase := .idle, refusedLast := false, noticesDropped := false, tickets := Vector.replicate 16 none,
    order := [], notices := [], watch := 0, sdo := [] }

/-- An empty receive record (R154). -/
def ReceiveRecord.empty : ReceiveRecord := { startMark := false, framed := 0, unframed := false, header := .notMade }

/-- The Bus Interface after reset (R154). -/
def BusInterface.reset : BusInterface :=
  { state := .idle, buffer := [], record := .empty, ackMap := 0, ackDrive := false, report := .heard }

/-- The Access Timer after reset (R174). -/
def AccessTimer.reset : AccessTimer := { reference := none, gapCount := 0, collisions := 0, holdOff := none }

/-- The Transmit Selector after reset (R174). -/
def Transmit.reset : Transmit :=
  { sendList := [], drops := [], replies := [], mend := none, presence := false, slot := none, seq := 0,
    lastSource := .hostList }

/-- The machine right after reset: every block at the values its chapter states for reset release (R18, R35, R55,
R75, R98, R116, R129, R154, R174, R192). DESIGN CHOICE, unsafe: the straps read 0 (log 1). -/
def State.reset : State :=
  { pending := []
    straps := { number := 0, rate := 0, inReset := false }
    mem := []
    cells := Vector.replicate 256 .reset
    apply := { doubt := .clear, foreign := 0, staging := none }
    locks := Vector.replicate 16 freeRegion
    mship := .reset
    sponsor := { joiners := [], cursor := 0 }
    bundle := { draft := [], outgoing := none }
    mend := { cells := [], current := none }
    port := .reset
    bus := .reset
    access := .reset
    tx := .reset }

/-- The state with its `pending` replaced. -/
def State.withPending (s : State) (x : List Instr) : State := { s with pending := x }

/-- The state with its `straps` replaced. -/
def State.withStraps (s : State) (x : Straps) : State := { s with straps := x }

/-- The state with its `mem` replaced. -/
def State.withMem (s : State) (x : Memory) : State := { s with mem := x }

/-- The state with its `cells` replaced. -/
def State.withCells (s : State) (x : Vector CellRec 256) : State := { s with cells := x }

/-- The state with its `apply` replaced. -/
def State.withApply (s : State) (x : ApplyUnit) : State := { s with apply := x }

/-- The state with its `locks` replaced. -/
def State.withLocks (s : State) (x : Vector RegionEntry 16) : State := { s with locks := x }

/-- The state with its `mship` replaced. -/
def State.withMship (s : State) (x : Membership) : State := { s with mship := x }

/-- The state with its `sponsor` replaced. -/
def State.withSponsor (s : State) (x : SponsorUnit) : State := { s with sponsor := x }

/-- The state with its `bundle` replaced. -/
def State.withBundle (s : State) (x : BundleUnit) : State := { s with bundle := x }

/-- The state with its `mend` replaced. -/
def State.withMend (s : State) (x : MendUnit) : State := { s with mend := x }

/-- The state with its `port` replaced. -/
def State.withPort (s : State) (x : HostPort) : State := { s with port := x }

/-- The state with its `bus` replaced. -/
def State.withBus (s : State) (x : BusInterface) : State := { s with bus := x }

/-- The state with its `access` replaced. -/
def State.withAccess (s : State) (x : AccessTimer) : State := { s with access := x }

/-- The state with its `tx` replaced. -/
def State.withTx (s : State) (x : Transmit) : State := { s with tx := x }

end Sys2Proof.Machine
end

