-- ==== Sys2Proof/Machine/Ops.lean ====
section
/-! DEFINITION. The named operations over the station's memory, flag sets, timers, Request Table and notice queue,
which every meaning shares. -/

namespace Sys2Proof.Machine

/-! ### Flag sets -/

/-- Flag k of a set of sixteen. -/
def flag (f : Flags16) (k : Fin 16) : Bool := f.getLsbD k.val

/-- A set of sixteen flags from its membership test. -/
def flagsOf (p : Fin 16 → Bool) : Flags16 :=
  (List.finRange 16).foldl (fun f k => if p k then f ||| (1#16 <<< k.val) else f) 0

/-- A set with flag k set. -/
def flagSet (f : Flags16) (k : Fin 16) : Flags16 := f ||| (1#16 <<< k.val)

/-- A set with flag k cleared. -/
def flagClear (f : Flags16) (k : Fin 16) : Flags16 := f &&& ~~~(1#16 <<< k.val)

/-! ### Cell data memory (R1, R18) -/

/-- The byte at an address: 00h, the reset content, where none is listed (R18). -/
def memRead (m : Memory) (a : Nat) : Byte :=
  match m with
  | [] => 0
  | (x, b) :: rest => if x = a then b else memRead rest a

/-- The memory with the byte at an address replaced, in canonical form again. -/
def memWrite (m : Memory) (a : Nat) (b : Byte) : Memory :=
  match m with
  | [] => if b = 0 then [] else [(a, b)]
  | (x, c) :: rest =>
      if a < x then (if b = 0 then (x, c) :: rest else (a, b) :: (x, c) :: rest)
      else if a = x then (if b = 0 then rest else (x, b) :: rest)
      else (x, c) :: memWrite rest a b

/-- The canonical form: addresses rising, and no entry equal to what an unlisted address reads as. -/
abbrev Memory.wf (m : Memory) : Prop := m.Pairwise (fun p q => p.1 < q.1) ∧ ∀ p ∈ m, p.2 ≠ 0

/-- The address of byte i of cell c (R1). -/
def cellAddress (c : CellIx) (i : Nat) : Nat := 32 * c.val + i

/-- The 32 data bytes of cell c. -/
def cellData (m : Memory) (c : CellIx) : CellData := Vector.ofFn fun i : Fin 32 => memRead m (cellAddress c i.val)

/-- Bytes written from an address upward. -/
def memWriteFrom (m : Memory) (a : Nat) (bytes : List Byte) : Memory :=
  match bytes with
  | [] => m
  | b :: rest => memWriteFrom (memWrite m a b) (a + 1) rest

/-- The memory with cell c's 32 data bytes replaced. -/
def writeCellData (m : Memory) (c : CellIx) (d : CellData) : Memory := memWriteFrom m (cellAddress c 0) d.toList

/-! ### Cells (R1 to R3) -/

/-- The region of a cell: the integer part of c/16 (R1). -/
def regionOf (c : CellIx) : Region := ⟨c.val / 16, by omega⟩

/-- The successor of a version: v + 1, and 1 after FFFFFFFFh (R2). -/
def succVersion (v : Version) : Version := if v = 0xFFFFFFFF#32 then 1 else v + 1

/-- The cells with cell c's record replaced. -/
def setCell (c : CellIx) (r : CellRec) (s : State) : State := s.withCells (s.cells.set c.val r)

/-- The Store writes a cell: data and version as given, check rewritten, PRESENT, any upset ended; the fresh mark as
given (R3, R9, R10, R11). -/
def writeCell (c : CellIx) (v : Version) (d : CellData) (fresh : Bool) (s : State) : State :=
  setCell c { version := v, check := cellCheck v d, status := .present, fresh := fresh, upset := false }
    (s.withMem (writeCellData s.mem c d))

/-! ### Station and tables -/

/-- This station's number. -/
def self (s : State) : Station := s.straps.number

/-- A table holder: FILLING, MEMBER or LEAVING (R20). -/
def isHolder (st : StationState) : Bool :=
  match st with
  | .filling | .member | .leaving => true
  | .unconfigured | .outside | .joinSent | .awaitState => false

/-- The stations as a list, in number order. -/
def stations : List Station := List.finRange 16

/-- A table sender: an entry that is JOINING or MEMBER (R25). -/
def isTableSender (t : Vector MemberEntry 16) (x : Station) : Bool := t[x].state != .absent

/-- An entry that is MEMBER. -/
def isMember (t : Vector MemberEntry 16) (x : Station) : Bool := t[x].state == .member

/-- The state with its station state replaced. -/
def setStation (st : StationState) (s : State) : State := s.withMship { s.mship with state := st }

/-- The state with its Membership Table replaced. -/
def setTable (t : Vector MemberEntry 16) (s : State) : State := s.withMship { s.mship with table := t }

/-- Two entries of one station that differ in at most the recorded last sequence (log 18). -/
def sameEntry (a b : MemberEntry) : Bool :=
  a.state == b.state && a.sponsor == b.sponsor && a.joinPlace == b.joinPlace

/-- The Membership Table changed: the table replaced, and every station whose entry changes leaves the foreign-reported
set (R32). -/
def changeTable (t : Vector MemberEntry 16) (s : State) : State :=
  let kept := flagsOf fun x => sameEntry s.mship.table[x] t[x]
  (setTable t s).withApply { s.apply with foreign := s.apply.foreign &&& kept }

/-! ### Timers -/

/-- A timer after k slots: a stopped timer stays stopped, a running one counts toward 0. -/
def timerRun (k : Nat) (t : Option Nat) : Option Nat := t.map (· - k)

/-- A running timer restarted at its limit; a stopped one stays stopped. -/
def timerRestart (limit : Nat) (t : Option Nat) : Option Nat := t.map fun _ => limit

/-- Restart of the presence timer (R92). -/
def restartPresence (s : State) : State :=
  s.withMship { s.mship with presence := timerRestart Config.presenceInterval s.mship.presence }

/-- Start of the presence timer (R92). -/
def startPresence (s : State) : State := s.withMship { s.mship with presence := some Config.presenceInterval }

/-- One peer's silence timer replaced (R91). -/
def setSilence (x : Station) (v : Option Nat) (s : State) : State :=
  s.withMship { s.mship with silence := s.mship.silence.set x.val v }

/-- All silence timers stopped (R91). -/
def stopSilence (s : State) : State := s.withMship { s.mship with silence := Vector.replicate 16 none }

/-! ### Request Table and notice queue (R182 to R186) -/

/-- A ticket in use is live until it is DONE (R182). -/
def ticketLive (t : Ticket) : Bool := t.state != .done

/-- The slots reserved for live tickets (R184). -/
def reserved (p : HostPort) : Nat := p.tickets.toList.countP (·.any ticketLive)

/-- An unreserved free slot exists: entries plus reserved slots number fewer than 32 (R184). -/
def roomFree (p : HostPort) : Bool := decide (p.notices.length + reserved p < Config.noticeCapacity)

/-- Post an unsolicited notice, or drop it and set NOTICES_DROPPED (R184, R186). -/
def postNotice (n : Notice) (s : State) : State :=
  if roomFree s.port then s.withPort { s.port with notices := s.port.notices ++ [n] }
  else s.withPort { s.port with noticesDropped := true }

/-- A CHANGED notice for a region. -/
def isChangedFor (r : Region) (n : Notice) : Bool :=
  match n with
  | .changed r' _ _ => r' == r
  | _ => false

/-- Report a write of region r by `writer`: merge into an untaken CHANGED for r, or post a new one (R137). -/
def postChanged (r : Region) (writer : Station) (s : State) : State :=
  if s.port.notices.any (isChangedFor r) then
    s.withPort { s.port with
      notices := s.port.notices.map fun n => if isChangedFor r n then .changed r writer true else n }
  else postNotice (.changed r writer false) s

/-- Complete ticket k: it becomes DONE and its COMPLETION fills its reserved slot; a ticket that is free or DONE is
left as it is (R183). -/
def complete (k : TicketNo) (o : Completion) (s : State) : State :=
  match s.port.tickets[k] with
  | some t =>
      if ticketLive t then
        s.withPort { s.port with
          tickets := s.port.tickets.set k.val (some { t with state := .done })
          notices := s.port.notices ++ [.completion k t.kind o] }
      else s
  | none => s

/-- Move a live ticket to another live state (R172, R182). -/
def advanceTicket (k : TicketNo) (st : TicketState) (s : State) : State :=
  match s.port.tickets[k] with
  | some t =>
      if ticketLive t then
        s.withPort { s.port with tickets := s.port.tickets.set k.val (some { t with state := st }) }
      else s
  | none => s

/-- The lowest-numbered live ticket that passes a test. -/
def findLive (p : HostPort) (q : Ticket → Bool) : Option TicketNo :=
  (List.finRange 16).find? fun k => match p.tickets[k] with
    | some t => ticketLive t && q t
    | none => false

/-- The live ticket of a kind for region r (R45, R46, R48). -/
def liveFor (p : HostPort) (kind : RequestKind) (r : Region) : Option TicketNo :=
  findLive p fun t => t.kind == kind && t.arg == .region r

/-- The live ticket of a kind. -/
def liveKind (p : HostPort) (kind : RequestKind) : Option TicketNo := findLive p fun t => t.kind == kind

/-- Complete the live ticket of a kind for region r, if there is one. -/
def completeFor (kind : RequestKind) (r : Region) (o : Completion) (s : State) : State :=
  match liveFor s.port kind r with
  | some k => complete k o s
  | none => s

/-- The lowest-numbered free ticket (R182). -/
def freeTicket (p : HostPort) : Option TicketNo := (List.finRange 16).find? fun k => p.tickets[k].isNone

/-- The ticket the Host Port can issue, if it can issue one: a ticket is free and an unreserved slot is too (R182). -/
def issuable (p : HostPort) : Option TicketNo := if roomFree p then freeTicket p else none

/-- Issue ticket k: in use, QUEUED, at the tail of the acceptance order (R182). -/
def issue (k : TicketNo) (kind : RequestKind) (arg : TicketArg) (link : Option TicketNo) (s : State) : State :=
  s.withPort { s.port with
    tickets := s.port.tickets.set k.val (some { kind := kind, state := .queued, arg := arg, link := link })
    order := s.port.order ++ [k] }

/-- Free ticket k (R183, R185). -/
def freeUp (k : TicketNo) (p : HostPort) : HostPort :=
  { p with tickets := p.tickets.set k.val none, order := p.order.filter (· != k) }

/-- Complete each of a list of tickets in order. -/
def completeAll (ks : List TicketNo) (o : Completion) (s : State) : State := ks.foldl (fun s k => complete k o s) s

/-- The tickets in a state, in acceptance order (R182). -/
def ticketsIn (p : HostPort) (q : TicketState → Bool) : List TicketNo :=
  p.order.filter fun k => p.tickets[k].any fun t => q t.state

/-! ### Service queue and slot -/

/-- The service queue without a DROP naming x (R89, R91). -/
def withdrawDrops (x : Station) (s : State) : State :=
  s.withTx { s.tx with drops := s.tx.drops.filter (·.target != x) }

/-- The service queue without a DROP(x, SILENT) that still waits for a turn (R91). -/
def withdrawSilentDrop (x : Station) (s : State) : State :=
  s.withTx { s.tx with
    drops := s.tx.drops.filter fun d => !(d.target == x && d.reason == .silent && d.cls == .turn) }

/-- A WRITE fragment in the slot that no station has heard is abandoned, and its sequence given back (R71, R73,
R164). -/
def abandonUnheardFragment (s : State) : State :=
  match s.tx.slot with
  | some sl => match sl.heard, sl.frame.body with
    | false, .write _ => s.withTx { s.tx with slot := none, seq := sl.frame.head.seq }
    | _, _ => s
  | none => s

/-- The outgoing bundle has begun: its COMMIT ticket is no longer QUEUED (R64). -/
def bundleBegun (b : Outgoing) (s : State) : Bool := !(s.port.tickets[b.ticket].any (·.state == .queued))

/-- The COMMIT ticket completes and the outgoing bundle buffer is emptied (R64, R71, R73). -/
def completeCommit (o : Completion) (s : State) : State :=
  match s.bundle.outgoing with
  | some b => (complete b.ticket o s).withBundle { s.bundle with outgoing := none }
  | none => s

/-! ### Outcome of a command -/

/-- A command's effect on a station that is out of reset; while reset is applied the station takes no transaction,
drives nothing and hears nothing, so the state stays as it is (R154, R192). -/
def running (f : State → State) (s : State) : Host.Outcome State Fault Refusal :=
  .next (if s.straps.inReset then s else f s)

end Sys2Proof.Machine
end

