-- ==== Sys2Proof/Machine/Mend.lean ====
section
/-! DEFINITION. The Mend Unit (chapter 7): beginning a mend, choosing responders, attempts, ends; and what a MEND or
MENDREPLY applied here does. -/

namespace Sys2Proof.Machine

/-- The cell of the current mend: the head of the mend list while there is a current mend (R117). -/
def currentCell (m : MendUnit) : Option CellIx :=
  match m.current with
  | some _ => m.cells.head?
  | none => none

/-- The cyclic order of responders at station n: n + 1 upward through 15 and on from 0, n itself left out (R119). -/
def responderOrder (n : Station) : List Station := (List.range 15).map fun k => Fin.ofNat 16 (n.val + 1 + k)

/-- The first station in the cyclic order that is MEMBER and not yet tried (R119). -/
def nextResponder (tried : Flags16) (s : State) : Option Station :=
  (responderOrder (self s)).find? fun x => isMember s.mship.table x && !flag tried x

/-- The responder of a mend's first attempt: the holder of the cell's region when that is a MEMBER other than this
station, else the first in the cyclic order (R119). -/
def firstResponder (c : CellIx) (s : State) : Option Station :=
  match s.locks[regionOf c].holder with
  | some h => if h ≠ self s && isMember s.mship.table h then some h else nextResponder 0 s
  | none => nextResponder 0 s

/-- Ask responder x for the copy of cell c: x enters the tried set, the window timer stands stopped, and the MEND
slot holds the MEND to x (R118, R120, R124). -/
def askResponder (x : Station) (c : CellIx) (tried : Flags16) (s : State) : State :=
  (s.withMend { s.mend with current := some { responder := x, tried := flagSet tried x, window := none } }).withTx
    { s.tx with mend := some { responder := x, cell := c } }

/-- Mends begun from the cells of the list in order: a cell without a responder is lost at once, and the first that
has one becomes the current mend (R118, R127). -/
def beginFrom (cs : List CellIx) (s : State) : State :=
  match cs with
  | [] => s.withMend { cells := [], current := none }
  | c :: rest =>
      match firstResponder c s with
      | some x => askResponder x c 0 (s.withMend { cells := c :: rest, current := none })
      | none => beginFrom rest (postNotice (.cellLost c) s)

/-- A mend begins when the station is MEMBER, the list is not empty and there is no current mend (R118). -/
def beginMend (s : State) : State :=
  if s.mship.state = .member ∧ s.mend.current = none then beginFrom s.mend.cells s else s

/-- The current mend ends: its cell leaves the list, the tried set and timer go, a MEND still in the slot is removed
(R127). The next mend is begun by the caller. -/
def endMend (s : State) : State :=
  (s.withMend { cells := s.mend.cells.tail, current := none }).withTx { s.tx with mend := none }

/-- A new attempt of the current mend (R124): the next responder is asked; without one the cell is lost and the next
mend begins; at a LEAVING station the mend ends and its cell stays in the list (R128). -/
def attemptMend (s : State) : State :=
  match s.mend.current, s.mend.cells with
  | some m, c :: _ =>
      if s.mship.state = .member then
        match nextResponder m.tried s with
        | some x => askResponder x c m.tried s
        | none => beginMend (postNotice (.cellLost c) (endMend s))
      else (s.withMend { s.mend with current := none }).withTx { s.tx with mend := none }
  | _, _ => s

/-- x has left MEMBER: its MENDREPLY entries go (R121), and if it is the present responder a new attempt is made
(R125). -/
def mendPeerLost (x : Station) (s : State) : State :=
  let s := s.withTx { s.tx with replies := s.tx.replies.filter (·.requester != x) }
  match s.mend.current with
  | some m => if m.responder = x then attemptMend s else s
  | none => s

/-- A bundle has made cell c PRESENT: the current mend of c ends, or c leaves the list (R126). -/
def mendCellWritten (c : CellIx) (s : State) : State :=
  if currentCell s.mend = some c then endMend s
  else s.withMend { s.mend with cells := s.mend.cells.filter (· != c) }

/-- The Mend Unit's step after a bundle is written: the records in order, then the next mend (R126). -/
def mendAfterWrite (recs : List WriteRecord) (s : State) : State :=
  beginMend (recs.foldl (fun s r => mendCellWritten r.cell s) s)

/-- A cell that failed its verification at a MEMBER joins the list's tail unless listed (R8, R117). -/
def listForMend (c : CellIx) (s : State) : State :=
  if s.mship.state = .member ∧ c ∉ s.mend.cells then s.withMend { s.mend with cells := s.mend.cells ++ [c] } else s

/-- Effect of a MEND from `sender` aimed at `target` (R121). -/
def applyMend (sender target : Station) (c : CellIx) (s : State) : State :=
  if target = self s ∧ isMember s.mship.table sender ∧ (s.mship.state = .member ∨ s.mship.state = .leaving)
      ∧ s.tx.replies.length < Config.mendReplyCapacity then
    s.withTx { s.tx with replies := s.tx.replies ++ [{ requester := sender, cell := c }] }
  else s

/-- Effect of a MENDREPLY from `sender` aimed at `target` (R123, R11). -/
def applyMendReply (sender target : Station) (c : CellIx) (a : MendAnswer) (s : State) : State :=
  if target = self s ∧ isMember s.mship.table sender ∧ (s.mship.state = .member ∨ s.mship.state = .leaving)
      ∧ currentCell s.mend = some c then
    match a with
    | .data v d =>
        let s := if s.cells[c].status = .damaged then writeCell c v d s.cells[c].fresh s else s
        beginMend (endMend s)
    | .noCopy =>
        match s.mend.current with
        | some m => if m.responder = sender ∧ m.window.isSome then attemptMend s else s
        | none => s
  else s

end Sys2Proof.Machine
end

