-- ==== Sys2Proof/Machine/Store.lean ====
section
/-! DEFINITION. The Cell Store (chapter 1): verification, reads at a read point, and the changes of status that write
no cell. -/

namespace Sys2Proof.Machine

/-- The check of cell c verifies: the code recomputed over data and version equals the code kept, and no storage
upset of the cell is outstanding (R3, R6). -/
def verifies (c : CellIx) (s : State) : Bool :=
  !s.cells[c].upset && cellCheck s.cells[c].version (cellData s.mem c) == s.cells[c].check

/-- Cell c's status replaced; data, version and check stay (R7, R12). -/
def setStatus (c : CellIx) (st : CellStatus) (s : State) : State := setCell c { s.cells[c] with status := st } s

/-- A failed verification: the cell becomes DAMAGED and, at a MEMBER, joins the mend list (R7, R8). -/
def damageCell (c : CellIx) (s : State) : State := listForMend c (setStatus c .damaged s)

/-- The verification of cell c at a host read: PRESENT and STALE cells are verified (R7). -/
def verifyForHost (c : CellIx) (s : State) : State :=
  match s.cells[c].status with
  | .present | .stale => if verifies c s then s else damageCell c s
  | .absent | .damaged => s

/-- The verification of cell c at a SNAPCELLS or MENDREPLY build: PRESENT cells are verified (R7). -/
def verifyForBuild (c : CellIx) (s : State) : State :=
  match s.cells[c].status with
  | .present => if verifies c s then s else damageCell c s
  | .absent | .damaged | .stale => s

/-- The version a WRITE record carries for a cell of the sender's own: the successor of a PRESENT cell's version, 0
for a DAMAGED one (R62). A MEMBER's cells have no other status (R15, log 20). -/
def carriedVersion (c : CellIx) (s : State) : Version :=
  match s.cells[c].status with
  | .present => succVersion s.cells[c].version
  | .absent | .damaged | .stale => 0

/-- The SNAPCELLS record of a cell as the read point left it (R104). An ABSENT or STALE cell, which no MEMBER has (R15),
gives a missing record (DESIGN CHOICE, log 20: R4 says only that the case is not reached). -/
def snapRecordOf (c : CellIx) (s : State) : SnapRecord :=
  match s.cells[c].status with
  | .present => .present s.cells[c].version (cellData s.mem c)
  | .absent | .damaged | .stale => .missing

/-- The MENDREPLY result of a cell as the read point left it (R122). An ABSENT or STALE cell, which no MEMBER has (R15),
gives NONE (DESIGN CHOICE, log 20: R4 says only that the case is not reached). -/
def mendAnswerOf (c : CellIx) (s : State) : MendAnswer :=
  match s.cells[c].status with
  | .present => .data s.cells[c].version (cellData s.mem c)
  | .absent | .damaged | .stale => .noCopy

/-- Cell i of group g (R104). -/
def groupCell (g : Group) (i : Fin 8) : CellIx := ⟨8 * g.val + i.val, by omega⟩

/-- All fresh marks cleared (R5). -/
def clearMarks (s : State) : State := s.withCells (s.cells.map fun r => { r with fresh := false })

/-- The cells at a founding: ABSENT and STALE become PRESENT, DAMAGED stay, no check is rewritten (R13). -/
def foundCell (r : CellRec) : CellRec :=
  match r.status with
  | .absent | .stale => { r with status := .present }
  | .present | .damaged => r

/-- The cells at a departure: PRESENT become STALE, the others keep their status, all marks are cleared (R14). -/
def departCell (r : CellRec) : CellRec :=
  match r.status with
  | .present => { r with status := .stale, fresh := false }
  | .absent | .damaged | .stale => { r with fresh := false }

/-- The effect of one SNAPCELLS record on its cell at the FILLING target: none on a marked cell (R10). -/
def applySnapRecord (c : CellIx) (r : SnapRecord) (s : State) : State :=
  if s.cells[c].fresh then s
  else match r with
    | .present v d => writeCell c v d false s
    | .missing => setStatus c .damaged s

/-- The effect of the eight records of group g in order (R10). -/
def applySnapRecords (g : Group) (recs : Vector SnapRecord 8) (s : State) : State :=
  (List.finRange 8).foldl (fun s i => applySnapRecord (groupCell g i) recs[i] s) s

/-- The indices of the DAMAGED cells in increasing order (R84, R117). -/
def damagedCells (cells : Vector CellRec 256) : List CellIx :=
  (List.finRange 256).filter fun c => cells[c].status == .damaged

end Sys2Proof.Machine
end

