-- ==== Sys2Proof/Machine/Departure.lean ====
section
/-! DEFINITION. Departure: the one step by which the station gives up its group state (R93, R94), with every block's
values after it (R14, R35, R55, R75, R116, R129, R173, R191). -/

namespace Sys2Proof.Machine

/-- The completions and the notice of a departure: every live ticket LOST in acceptance order, then LEFT_GROUP (R94,
R191). -/
def departNotices (reason : DepartReason) (s : State) : State :=
  postNotice (.leftGroup reason) (completeAll (ticketsIn s.port (· != .done)) .lost s)

/-- Auto-rejoin follows: OUT_OF_STEP found in FILLING or MEMBER with auto-rejoin on (R34, R96). -/
def rejoins (reason : DepartReason) (m : Membership) : Bool :=
  reason == .outOfStep && (m.state == .filling || m.state == .member) && m.autoRejoin == some true

/-- The Membership block after a departure (R94, R96, R98). -/
def departMembership (reason : DepartReason) (m : Membership) : Membership :=
  { m with
    state := if rejoins reason m then .joinSent else .outside
    table := Vector.replicate 16 absentEntry
    silence := Vector.replicate 16 none
    presence := none
    departed := true }

/-- The Transmit Selector after a departure (R173); the JOIN of auto-rejoin stands on the emptied list (R96). -/
def departTransmit (rejoin : Bool) (t : Transmit) : Transmit :=
  { t with
    sendList := if rejoin then [{ ticket := none, frame := .join }] else []
    drops := []
    replies := []
    mend := none
    presence := false
    slot := none }

/-- The departure for a reason (R93, R94). -/
def depart (reason : DepartReason) (s : State) : State :=
  let s := departNotices reason s
  { s with
    cells := s.cells.map departCell
    apply := { doubt := .clear, foreign := 0, staging := none }
    locks := Vector.replicate 16 freeRegion
    mship := departMembership reason s.mship
    sponsor := { joiners := [], cursor := 0 }
    bundle := { draft := [], outgoing := none }
    mend := { cells := [], current := none }
    tx := departTransmit (rejoins reason s.mship) s.tx }

end Sys2Proof.Machine
end

