-- ==== Sys2Proof/Machine/Locks.lean ====
section
/-! DEFINITION. The Lock Table (chapter 3): claims, yields, removals and grants at application. -/

namespace Sys2Proof.Machine

/-- A region entry after an applied CLAIM of x: x holds a free region, keeps the place it has, or joins the queue's
tail (R38). -/
def claimEntry (x : Station) (e : RegionEntry) : RegionEntry :=
  match e.holder with
  | none => { e with holder := some x }
  | some h => if h = x ∨ x ∈ e.waiters then e else { e with waiters := e.waiters ++ [x] }

/-- A region entry after an applied YIELD of x: from the holder it passes to the queue's head or becomes free, and a
waiter leaves the queue (R40). -/
def yieldEntry (x : Station) (e : RegionEntry) : RegionEntry :=
  if e.holder = some x then
    match e.waiters with
    | [] => { holder := none, waiters := [] }
    | w :: ws => { holder := some w, waiters := ws }
  else { e with waiters := e.waiters.filter (· != x) }

/-- This station holds region r (R37). -/
def holdsRegion (r : Region) (s : State) : Bool := s.locks[r].holder == some (self s)

/-- The regions that this station holds now and did not hold in `before`, in increasing order: its grants (R41). -/
def grantedSince (before : Vector RegionEntry 16) (s : State) : List Region :=
  (List.finRange 16).filter fun r => holdsRegion r s && before[r].holder != some (self s)

/-- The grants of an application: for each region newly held, its live CLAIM ticket completes GRANTED (R41). -/
def completeGrants (before : Vector RegionEntry 16) (s : State) : State :=
  (grantedSince before s).foldl (fun s r => completeFor .claim r .granted s) s

/-- The removal of station x from every region, with the grants it gives this station (R42, R41). -/
def releaseLocks (x : Station) (s : State) : State :=
  completeGrants s.locks (s.withLocks (s.locks.map (yieldEntry x)))

/-- Effect of a CLAIM of `sender` (R38); the own CLAIM that finds or makes this station holder completes its ticket
GRANTED (R39). -/
def applyClaim (sender : Station) (r : Region) (s : State) : State :=
  if isMember s.mship.table sender then
    let s := s.withLocks (s.locks.set r.val (claimEntry sender s.locks[r]))
    if sender = self s ∧ holdsRegion r s then completeFor .claim r .granted s else s
  else s

/-- The completions of this station's own YIELD by the ticket that rode on it (R47, R50): RELEASE completes DONE;
WITHDRAW completes RELEASED when the station held the region, and otherwise its CLAIM completes WITHDRAWN and it
completes DONE. -/
def completeYield (ticket : Option TicketNo) (r : Region) (held : Bool) (s : State) : State :=
  match ticket with
  | none => s
  | some k =>
      match s.port.tickets[k] with
      | none => s
      | some t =>
          if t.kind = .withdraw then
            if held then complete k .released s
            else complete k .done (completeFor .claim r .withdrawn s)
          else complete k .done s

/-- Effect of a YIELD of a peer (R40), with the grant it gives this station (R41). -/
def applyYield (sender : Station) (r : Region) (s : State) : State :=
  completeGrants s.locks (s.withLocks (s.locks.set r.val (yieldEntry sender s.locks[r])))

/-- Effect of this station's own YIELD, which grants it nothing, with the completions of the ticket that rides on it
(R40, R47, R50). -/
def applyOwnYield (ticket : Option TicketNo) (r : Region) (s : State) : State :=
  let held := holdsRegion r s
  completeYield ticket r held (s.withLocks (s.locks.set r.val (yieldEntry (self s) s.locks[r])))

end Sys2Proof.Machine
end

