-- ==== Sys2Proof/Machine/Membership.lean ====
section
/-! DEFINITION. The Membership Table and the Sponsor Unit's list (chapters 5 and 6): joins, leaves, drops, sponsor
choice and reassignment, and the end of a fill. -/

namespace Sys2Proof.Machine

/-! ### The table and its join order (R78) -/

/-- The lowest-numbered MEMBER (R81, R82). -/
def lowestMember (t : Vector MemberEntry 16) : Option Station := stations.find? (isMember t)

/-- A join place after the entry at place p left the join order: those behind it move up one (R78). -/
def closeGap (p : Nat) (e : MemberEntry) : MemberEntry :=
  { e with joinPlace := e.joinPlace.map fun k => if p < k then k - 1 else k }

/-- The table with x's entry replaced by one that is not JOINING: x leaves the join order if it stood in it (R78). -/
def leaveJoinOrder (x : Station) (e : MemberEntry) (t : Vector MemberEntry 16) : Vector MemberEntry 16 :=
  let t' := match t[x].joinPlace with
    | some p => t.map (closeGap p)
    | none => t
  t'.set x.val e

/-- x's entry becomes ABSENT with last sequence 0 (R87, R89). -/
def makeAbsent (x : Station) (t : Vector MemberEntry 16) : Vector MemberEntry 16 := leaveJoinOrder x absentEntry t

/-- x's JOINING entry becomes MEMBER, without sponsor and join place (R84). -/
def makeMember (x : Station) (t : Vector MemberEntry 16) : Vector MemberEntry 16 :=
  leaveJoinOrder x { t[x] with state := .member, sponsor := none, joinPlace := none } t

/-- x's entry becomes JOINING at the tail of the join order, with its baseline and sponsor (R81, R26). -/
def makeJoining (x : Station) (q : Seq) (sponsor : Station) (t : Vector MemberEntry 16) : Vector MemberEntry 16 :=
  t.set x.val { state := .joining, lastSeq := q, sponsor := some sponsor, joinPlace := some (joiningCount t) }

/-- The JOINING stations that y sponsors, in join order (R82). -/
def joinersOf (y : Station) (t : Vector MemberEntry 16) : List Station :=
  (List.range 16).filterMap fun p =>
    stations.find? fun x => t[x].state == .joining && t[x].sponsor == some y && t[x].joinPlace == some p

/-- A JOINING entry of sponsor y handed to sponsor z (R82). -/
def responsor (y z : Station) (e : MemberEntry) : MemberEntry :=
  if e.state = .joining ∧ e.sponsor = some y then { e with sponsor := some z } else e

/-- The sequence of x's entry recorded; an ABSENT entry keeps 0 (R24 step 4, R78). -/
def recordSeq (x : Station) (q : Seq) (s : State) : State :=
  if isTableSender s.mship.table x then
    setTable (s.mship.table.set x.val { s.mship.table[x] with lastSeq := q }) s
  else s

/-- No entry is MEMBER (R95). -/
def noMember (t : Vector MemberEntry 16) : Bool := (lowestMember t).isNone

/-! ### The sponsor list (R99 to R101) -/

/-- Joiners appended to this station's sponsor list; a cursor is 0 while the list is empty (R99, R100). -/
def sponsorAppend (xs : List Station) (s : State) : State :=
  s.withSponsor { s.sponsor with joiners := s.sponsor.joiners ++ xs }

/-- x leaves the sponsor list; when it was the head, the next station's snapshot starts at cursor 0 (R101). -/
def sponsorForget (x : Station) (s : State) : State :=
  if s.sponsor.joiners.head? = some x then
    s.withSponsor { joiners := s.sponsor.joiners.tail, cursor := 0 }
  else s.withSponsor { s.sponsor with joiners := s.sponsor.joiners.filter (· != x) }

/-- The reassignment of the joiners of y, whose entry has left MEMBER: to the lowest-numbered MEMBER, which appends
them to its list when it is this station (R82, R100); when y is this station its own list is emptied (R101). Without a
MEMBER the joiners become ABSENT (R95). -/
def reassign (y : Station) (s : State) : State :=
  let xs := joinersOf y s.mship.table
  let s := if y = self s then s.withSponsor { joiners := [], cursor := 0 } else s
  match lowestMember s.mship.table with
  | some z =>
      let s := changeTable (s.mship.table.map (responsor y z)) s
      if z = self s then sponsorAppend xs s else s
  | none => changeTable (xs.foldl (fun t x => makeAbsent x t) s.mship.table) s

/-! ### Signs of life (R91) -/

/-- A good frame of a table sender, or a driven ack position, of peer x: its running silence timer restarts, and a
queued DROP(x, SILENT) is removed (R91, log 22). -/
def signOfLife (x : Station) (s : State) : State :=
  withdrawSilentDrop x (setSilence x (timerRestart Config.silenceLimit s.mship.silence[x]) s)

/-- At a MEMBER station x's silence timer starts (R81, R84). -/
def startSilence (x : Station) (s : State) : State :=
  if s.mship.state = .member then setSilence x (some Config.silenceLimit) s else s

/-! ### Removal of a station (R87, R89) -/

/-- The steps that follow a peer x's loss of MEMBER or its removal, after its entry has changed: reassignment of its
joiners and the Mend Unit's step when it was MEMBER, then MEMBER_OUT; at a FILLING station whose table holds no MEMBER
the departure NO_SPONSOR in their place (R82, R87, R89, R95, R125). -/
def afterRemoval (x : Station) (wasMember : Bool) (reason : OutReason) (s : State) : State :=
  if s.mship.state = .filling ∧ noMember s.mship.table then depart .noSponsor s
  else
    let s := if wasMember then mendPeerLost x (reassign x s) else s
    postNotice (.memberOut x reason) s

/-- The removal of another station x whose entry is JOINING or MEMBER, its locks having passed on already: entry ABSENT,
timer, queued DROPs, foreign set and sponsor list, then what follows (R87 steps 3 to 7, R89). -/
def expel (x : Station) (reason : OutReason) (s : State) : State :=
  let wasMember := isMember s.mship.table x
  let s := changeTable (makeAbsent x s.mship.table) s
  let s := sponsorForget x (withdrawDrops x (setSilence x none s))
  afterRemoval x wasMember reason s

/-- The MEMBER_OUT reason of a DROP (R89). -/
def outReasonOf (r : DropReason) : OutReason :=
  match r with
  | .silent => .silent
  | .noAck => .noAck

/-- Effect of a DROP of `target` by `sender` (R89, R90). -/
def applyDrop (sender target : Station) (reason : DropReason) (s : State) : State :=
  if isMember s.mship.table sender then
    if target = self s then depart .dropped s
    else if isTableSender s.mship.table target then expel target (outReasonOf reason) s
    else s
  else s

/-- This station's own LEAVE at its echo, its locks having passed on already: its own entry becomes ABSENT, its joiners
are reassigned (R88, R43, R101). -/
def applyOwnLeave (s : State) : State :=
  let x := self s
  reassign x (changeTable (makeAbsent x s.mship.table) s)

/-- Effect of a LEAVE of `sender` (R87, R88). -/
def applyLeave (sender : Station) (s : State) : State :=
  if isMember s.mship.table sender then
    if sender = self s then applyOwnLeave s else expel sender .leave s
  else s

/-! ### Joining (R81, R83) -/

/-- x becomes JOINING with baseline q, sponsored by the lowest-numbered MEMBER, and joins that station's list (R81,
R100). Without any MEMBER no sponsor can be named and the entry stays as it is (log 19). -/
def admitJoiner (x : Station) (q : Seq) (s : State) : State :=
  match lowestMember s.mship.table with
  | some z =>
      let s := changeTable (makeJoining x q z s.mship.table) s
      startSilence x (if z = self s then sponsorAppend [x] s else s)
  | none => s

/-- x leaves the foreign-reported set (R32, R81). -/
def forgetStranger (x : Station) (s : State) : State :=
  s.withApply { s.apply with foreign := flagClear s.apply.foreign x }

/-- The MEMBER_OUT reason of a rejoin JOIN (R83). -/
def rejoinReason (rejoin : Bool) : OutReason := if rejoin then .rejoin else .restart

/-- Effect of an applied JOIN of x with sequence q, a MEMBER's locks having passed on already (R81, R83, R100). -/
def applyJoin (x : Station) (q : Seq) (rejoin : Bool) (s : State) : State :=
  let s := withdrawDrops x (forgetStranger x s)
  match s.mship.table[x].state with
  | .absent => admitJoiner x q s
  | .member =>
      let s := changeTable (makeAbsent x s.mship.table) (setSilence x none s)
      afterRemoval x true (rejoinReason rejoin) (admitJoiner x q s)
  | .joining =>
      if s.sponsor.joiners.head? = some x then s.withSponsor { s.sponsor with cursor := 0 } else s

/-! ### End of a fill (R84, R112) -/

/-- Silence timers for every other JOINING and MEMBER entry (R84). -/
def startAllSilence (s : State) : State :=
  let timers : Vector (Option Nat) 16 := Vector.ofFn fun x : Fin 16 =>
    if x ≠ self s && isTableSender s.mship.table x then some Config.silenceLimit else none
  s.withMship { s.mship with silence := timers }

/-- The end of this station's own fill (R84, R112): MEMBER, marks cleared, timers started, DAMAGED cells listed, JOIN
ticket JOINED or MEMBER_IN with its own number, then the first mend. -/
def endOwnFill (s : State) : State :=
  let x := self s
  let s := changeTable (makeMember x s.mship.table) (setStation .member s)
  let s := startAllSilence (clearMarks s)
  let s := s.withMend { s.mend with cells := damagedCells s.cells, current := none }
  let s := match liveKind s.port .join with
    | some k => complete k .joined s
    | none => postNotice (.memberIn x) s
  beginMend s

/-- The end of another joiner's fill at a table holder (R84, R101, R105). -/
def endPeerFill (x : Station) (s : State) : State :=
  let s := changeTable (makeMember x s.mship.table) s
  postNotice (.memberIn x) (sponsorForget x s)

/-- Effect of a SNAPCELLS frame of `sender` for `target` at a table holder (R105, R111). -/
def applySnapCells (sender target : Station) (g : Group) (recs : Vector SnapRecord 8) (s : State) : State :=
  let e := s.mship.table[target]
  if target = self s then
    if s.mship.state = .filling ∧ e.sponsor = some sender then
      let s := applySnapRecords g recs s
      if g = 31 then endOwnFill s else s
    else s
  else if g = 31 ∧ e.state = .joining ∧ e.sponsor = some sender then endPeerFill target s
  else s

/-- A SNAPSTATE targeted at this station is applied, in AWAIT_STATE or FILLING (R108, R109): the tables are the images,
the sender's last sequence that of the frame, the station FILLING. -/
def enterFilling (sender : Station) (q : Seq) (im : Images) (s : State) : State :=
  let s := clearMarks (stopSilence (setStation .filling s))
  { s with
    mship := { s.mship with table := im.members.set sender.val { im.members[sender] with lastSeq := q } }
    locks := im.locks
    apply := { doubt := .clear, foreign := 0, staging := none }
    sponsor := { joiners := [], cursor := 0 } }

/-- Effect of a SNAPSTATE at a table holder (R105, R109); a target is never its own sender (R193). -/
def applySnapState (sender : Station) (q : Seq) (target : Station) (im : Images) (s : State) : State :=
  if target = self s ∧ sender ≠ self s ∧ s.mship.state = .filling then enterFilling sender q im s else s

end Sys2Proof.Machine
end

