-- ==== Sys2Proof/Machine/Bundles.lean ====
section
/-! DEFINITION. Bundles at application (chapter 4): the staging, the commit point with its two checks, the breaking of
this station's own bundle. -/

namespace Sys2Proof.Machine

/-- The staging replaced. -/
def setStaging (st : Option Staging) (s : State) : State := s.withApply { s.apply with staging := st }

/-- The frame kinds that keep the staging of their own sender: WRITE and DROP (R66). -/
def keepsStaging (b : Body) : Bool :=
  match b with
  | .write _ | .drop _ _ => true
  | .presence | .join _ | .leave | .claim _ | .yield _ | .snapState _ _ | .snapCells _ _ _ => false
  | .mend _ _ | .mendReply _ _ _ | .signal _ _ => false

/-- This station's own bundle is broken: the COMMIT ticket completes REFUSED, the buffer is emptied, and a fragment in
the slot that no station heard is abandoned with its sequence given back (R71). -/
def breakBundle (s : State) : State :=
  match s.bundle.outgoing with
  | some _ => abandonUnheardFragment (completeCommit .refused s)
  | none => s

/-- The staging step of an applied frame (R66), breaking this station's own bundle when its own staging is discarded
(R71). Every frame that the sequence check takes comes here, a LEAVE or DROP of a JOINING sender too (DEDUCED, log 34). -/
def stagingStep (f : Frame) (s : State) : State :=
  match s.apply.staging with
  | none => s
  | some st =>
      if st.sender = f.head.sender ∧ keepsStaging f.body then s
      else
        let s := setStaging none s
        if st.sender = self s then breakBundle s else s

/-- The sender holds the region of every record (R68). -/
def holderCheck (sender : Station) (recs : List WriteRecord) (s : State) : Bool :=
  recs.all fun r => s.locks[regionOf r.cell].holder == some sender

/-- A record's version is accepted against this station's cell as it stands before the commit point (R69): an unmarked
cell at a FILLING station always, a PRESENT cell by succession or a carried 0, a DAMAGED cell always, a marked one at a
FILLING station too, as R69's table says where R5 and R110 speak of the check of a PRESENT cell (DEDUCED, log 33). (Other
statuses are not reached, R15, log 20.) -/
def versionAccepted (s : State) (r : WriteRecord) : Bool :=
  let c := s.cells[r.cell]
  (s.mship.state == .filling && !c.fresh)
    || match c.status with
      | .present => r.version == succVersion c.version || r.version == 0
      | .absent | .damaged | .stale => true

/-- One record written at the commit point; at a FILLING station its cell is marked fresh (R9, R70). -/
def writeRecord (s : State) (r : WriteRecord) : State :=
  writeCell r.cell r.version r.data (s.cells[r.cell].fresh || s.mship.state == .filling) s

/-- The regions a bundle touches, in increasing order (R136). -/
def regionsTouched (recs : List WriteRecord) : List Region :=
  (List.finRange 16).filter fun r => recs.any fun w => regionOf w.cell == r

/-- The CHANGED notices of a written bundle of another station (R136). -/
def reportChanges (sender : Station) (recs : List WriteRecord) (s : State) : State :=
  ((regionsTouched recs).filter (flag s.port.watch)).foldl (fun s r => postChanged r sender s) s

/-- The commit point, the staging being empty already (R68 to R70). None: a record's version fails and the station is
out of step. -/
def commitPoint (sender : Station) (recs : List WriteRecord) (s : State) : Option State :=
  if holderCheck sender recs s then
    if recs.all (versionAccepted s) then
      let s := recs.foldl writeRecord s
      let s := if sender = self s then completeCommit .applied s else reportChanges sender recs s
      some (mendAfterWrite recs s)
    else none
  else some (if sender = self s then completeCommit .refused s else s)

/-- Effect of a WRITE fragment of `sender` on the staging as the staging step left it (R65). None: out of step. -/
def applyWrite (sender : Station) (w : WriteBody) (s : State) : Option State :=
  let taken : Option Staging := match s.apply.staging with
    | none => if w.index = 0 then some { sender := sender, count := w.count, expected := 1, records := w.records } else none
    | some st =>
        if w.index = st.expected ∧ w.count = st.count then
          some { st with expected := st.expected + 1, records := st.records ++ w.records }
        else none
  match taken with
  | none => none
  | some st =>
      if w.index + 1 = w.count then commitPoint sender st.records (setStaging none s)
      else some (setStaging (some st) s)

end Sys2Proof.Machine
end

