-- ==== Sys2Proof/Machine/Apply.lean ====
section
/-! DEFINITION. The Apply Unit (chapter 2): the handling of good and damaged frames by station state, doubt, sequence
checks, effects, and the acknowledgement decision. -/

namespace Sys2Proof.Machine

/-- Doubt replaced. -/
def setDoubt (d : Doubt) (s : State) : State := s.withApply { s.apply with doubt := d }

/-! ### Damaged frames (R28) -/

/-- The doubt after a damaged-known frame of sender x with sequence q at a table holder (R28). -/
def doubtAfterKnown (s : State) (x : Station) (q : Seq) : Doubt :=
  match s.apply.doubt with
  | .known y p => .known y p
  | .clear =>
      if x = self s then .clear
      else if isTableSender s.mship.table x then
        if s.mship.table[x].lastSeq = q then .clear else .known x q
      else .unknown
  | .unknown =>
      if x = self s then .unknown
      else if isTableSender s.mship.table x ∧ s.mship.table[x].lastSeq ≠ q then .known x q
      else .unknown

/-- The doubt after a damaged-unknown frame at a table holder (R28). -/
def doubtAfterUnknown (d : Doubt) : Doubt :=
  match d with
  | .clear | .unknown => .unknown
  | .known y p => .known y p

/-- A damaged-known frame at the Apply Unit (R20, R28). -/
def handleDamagedKnown (x : Station) (q : Seq) (s : State) : State :=
  if isHolder s.mship.state then setDoubt (doubtAfterKnown s x q) s else s

/-- A damaged-unknown frame at the Apply Unit (R20, R28). -/
def handleDamagedUnknown (s : State) : State :=
  if isHolder s.mship.state then setDoubt (doubtAfterUnknown s.apply.doubt) s else s

/-! ### Foreign frames (R31) -/

/-- A JOIN frame. -/
def isJoin (b : Body) : Bool :=
  match b with
  | .join _ => true
  | _ => false

/-- A good frame that is foreign at this table holder: of this station's own number, or a non-JOIN from an ABSENT
entry (R24 step 1, R31). -/
def isForeign (f : Frame) (s : State) : Bool :=
  f.head.sender == self s || (!isJoin f.body && !isTableSender s.mship.table f.head.sender)

/-- The report of a foreign frame: FOREIGN once per stranger, in FILLING and MEMBER (R31). -/
def reportForeign (x : Station) (s : State) : State :=
  if (s.mship.state = .filling ∨ s.mship.state = .member) ∧ flag s.apply.foreign x = false then
    postNotice (.foreign x) (s.withApply { s.apply with foreign := flagSet s.apply.foreign x })
  else s

/-! ### Doubt resolution and sequence check (R29, R30, R25, R26) -/

/-- What doubt makes of the next good frame of the group. -/
inductive Resolution where
  | goOn
  | dropped
  | outOfStep
deriving DecidableEq, Repr

/-- A DROP naming this station from a MEMBER sender (R29, R90). -/
def dropsSelf (f : Frame) (s : State) : Bool :=
  match f.body with
  | .drop t _ => t == self s && isMember s.mship.table f.head.sender
  | _ => false

/-- The resolution of the doubt held by a good frame of a peer (R29, R30). The DROP naming this station goes before
the awaited sequence, since its sequence is not compared (log 12). -/
def resolveDoubt (f : Frame) (s : State) : Resolution :=
  match s.apply.doubt with
  | .clear | .unknown => .goOn
  | .known x q =>
      if dropsSelf f s then .dropped
      else if f.head.sender = x ∧ f.head.seq = q then .goOn
      else .outOfStep

/-- What the sequence check finds (R25, R26). -/
inductive SeqVerdict where
  | applied
  | duplicate
  | outOfStep
deriving DecidableEq, Repr

/-- The sequence check of a good frame of a peer (R25; R26 for a JOIN). -/
def checkSeq (f : Frame) (s : State) : SeqVerdict :=
  let e := s.mship.table[f.head.sender]
  match f.body with
  | .join _ => if f.head.repeated ∧ e.state = .joining ∧ f.head.seq = e.lastSeq then .duplicate else .applied
  | _ => if f.head.seq = e.lastSeq + 1 then .applied
         else if f.head.seq = e.lastSeq then .duplicate
         else .outOfStep

/-! ### Effects (R24 step 6) -/

/-- Effect of a SIGNAL: SIGNAL_IN at each MEMBER or LEAVING target other than the sender, the sender being MEMBER
(R132). -/
def applySignal (sender : Station) (target : Option Station) (bytes : List Byte) (s : State) : State :=
  if sender ≠ self s ∧ (target = none ∨ target = some (self s)) ∧ isMember s.mship.table sender
      ∧ (s.mship.state = .member ∨ s.mship.state = .leaving) then
    postNotice (.signalIn sender bytes) s
  else s

/-- The effect of an applied frame on the Lock Table, with the GRANTED completions it gives this station: a CLAIM, a peer's
YIELD, and the removal of a MEMBER from every region by its LEAVE, by a DROP of it or by its rejoin JOIN (R38 to R42).
It goes before the staging step and every other notice of the application, as R41 and R87 say (DEDUCED, log 29). -/
def lockEffect (f : Frame) (s : State) : State :=
  let x := f.head.sender
  match f.body with
  | .claim r => applyClaim x r s
  | .yield r => if x = self s then s else applyYield x r s
  | .leave => if isMember s.mship.table x then releaseLocks x s else s
  | .drop t _ =>
      if isMember s.mship.table x ∧ t ≠ self s ∧ isMember s.mship.table t then releaseLocks t s else s
  | .join _ => if x ≠ self s ∧ isMember s.mship.table x then releaseLocks x s else s
  | .presence | .write _ | .snapState _ _ | .snapCells _ _ _ | .mend _ _ | .mendReply _ _ _ | .signal _ _ => s

/-- The effect of an applied frame through its owning block, the Lock Table's apart, with the ticket riding on it when it
is this station's own (R24 step 6, R27). None: the effect finds the station out of step (R33). -/
def effect (f : Frame) (ticket : Option TicketNo) (s : State) : Option State :=
  match f.body with
  | .presence => some s
  | .join rejoin => some (if f.head.sender = self s then s else applyJoin f.head.sender f.head.seq rejoin s)
  | .leave => some (applyLeave f.head.sender s)
  | .drop t r => some (applyDrop f.head.sender t r s)
  | .claim _ => some s
  | .yield r => some (if f.head.sender = self s then applyOwnYield ticket r s else s)
  | .write w => applyWrite f.head.sender w s
  | .snapState t im => some (applySnapState f.head.sender f.head.seq t im s)
  | .snapCells t g rs => some (applySnapCells f.head.sender t g rs s)
  | .mend t c => some (applyMend f.head.sender t c s)
  | .mendReply t c a => some (applyMendReply f.head.sender t c a s)
  | .signal t bs => some (applySignal f.head.sender t bs s)

/-- Steps 4 to 6 of R24: record, staging, effect, the effect on the Lock Table going before the staging (R41, R87,
log 29). They are passed by every frame that the sequence check takes (R25), a LEAVE or DROP of a JOINING sender among them,
whose effect alone is withheld (DEDUCED, log 34). -/
def takeFrame (f : Frame) (ticket : Option TicketNo) (s : State) : Option State :=
  effect f ticket (stagingStep f (lockEffect f (recordSeq f.head.sender f.head.seq s)))

/-! ### Handling of good frames -/

/-- A good frame of a peer at a table holder, with the ack decision (R24, R22, R23). A frame found out of step has no
effect but the departure (R33, log 16). -/
def handleAtHolder (f : Frame) (s : State) : State × Bool :=
  if isForeign f s then (reportForeign f.head.sender s, false)
  else match resolveDoubt f s with
    | .dropped => (depart .dropped s, false)
    | .outOfStep => (depart .outOfStep s, false)
    | .goOn =>
        let s := setDoubt .clear s
        match checkSeq f s with
        | .outOfStep => (depart .outOfStep s, false)
        | .duplicate => (signOfLife f.head.sender s, true)
        | .applied =>
            match takeFrame f none (signOfLife f.head.sender s) with
            | some t => (t, isHolder t.mship.state)
            | none => (depart .outOfStep s, false)

/-- A good frame of a peer in AWAIT_STATE, with the ack decision: only a SNAPSTATE targeted here is applied (R21). -/
def handleAwaiting (f : Frame) (s : State) : State × Bool :=
  if f.head.sender = self s then (s, false)
  else match f.body with
    | .snapState t im => if t = self s then (enterFilling f.head.sender f.head.seq im s, true) else (s, true)
    | _ => (s, true)

/-- A good frame that this station did not drive, with the ack decision (R20, R22). -/
def handlePeer (f : Frame) (s : State) : State × Bool :=
  match s.mship.state with
  | .unconfigured | .outside | .joinSent => (s, false)
  | .awaitState => handleAwaiting f s
  | .filling | .member | .leaving => handleAtHolder f s

/-- This station's own frame with a good echo (R27): at a table holder any doubt is resolved (log 14), and the frame's
first good echo is applied; a repeat is not applied again. -/
def handleOwn (f : Frame) (ticket : Option TicketNo) (first : Bool) (s : State) : State :=
  if isHolder s.mship.state then
    match s.apply.doubt with
    | .known _ _ => depart .outOfStep s
    | .clear | .unknown =>
        let s := setDoubt .clear s
        if first then (takeFrame f ticket s).getD (depart .outOfStep s) else s
  else s

end Sys2Proof.Machine
end

