-- ==== Sys2Proof/Machine/Transmit.lean ====
section
/-! DEFINITION. The Transmit Selector and the Access Timer up to a transmission start (chapter 10): turn positions and
gaps, the frame offered, its building and rebuilding, and the start itself. -/

namespace Sys2Proof.Machine

/-! ### Turn position and gaps (R157, R158) -/

/-- This station's turn position: (n - L - 1) mod 16 after reference sender L, and n with L unset (R157). -/
def turnPosition (n : Station) (reference : Option Station) : Nat :=
  match reference with
  | some l => (n.val + 32 - l.val - 1) % 16
  | none => n.val

/-- The turn gap, 6 + 2p slots (R157). -/
def turnGap (n : Station) (reference : Option Station) : Nat := 6 + 2 * turnPosition n reference

/-- The slots of a gap at this station (R158). -/
def gapSlots (g : GapKind) (s : State) : Nat :=
  match g with
  | .repeatGap => Config.repeatGapSlots
  | .followOn => Config.followOnGapSlots
  | .turn => turnGap (self s) s.access.reference

/-! ### The frame offered (R165) -/

/-- What the Transmit Selector offers. -/
inductive Offer where
  /-- the frame in the slot: a repeat, or a transmission made again after a collision -/
  | again (slot : Slot)
  /-- a queued DROP, of settlement or turn class -/
  | drop (d : DropEntry)
  /-- the next fragment of the bundle in progress -/
  | fragment (b : Outgoing)
  | reply (r : ReplyEntry)
  | mend (m : MendEntry)
  | presence
  | snapshot (joiner : Station)
  | host (e : SendEntry)
deriving DecidableEq, Repr

/-- The number of fragments of a bundle of n cells (R61). -/
def fragmentCount (n : Nat) : Nat := (n + 7) / 8

/-- The bundle in progress whose next fragment is due: next index 1 or more, at a MEMBER or LEAVING station (R165). -/
def bundleInProgress (s : State) : Option Outgoing :=
  if s.mship.state = .member ∨ s.mship.state = .leaving then
    s.bundle.outgoing.filter fun b => decide (1 ≤ b.next) && decide (b.next < fragmentCount b.entries.length)
  else none

/-- The service queue's offer at a turn: the oldest turn DROP, the oldest MENDREPLY, the MEND, the PRESENCE (R165). -/
def serviceOffer (t : Transmit) : Option Offer :=
  match t.drops.find? (·.cls == .turn), t.replies, t.mend, t.presence with
  | some d, _, _, _ => some (.drop d)
  | none, r :: _, _, _ => some (.reply r)
  | none, [], some m, _ => some (.mend m)
  | none, [], none, true => some .presence
  | none, [], none, false => none

/-- The head of the sponsor list, while its snapshot has a frame to build (R102). -/
def snapshotWork (s : State) : Option Station :=
  if s.sponsor.cursor < 33 then s.sponsor.joiners.head? else none

/-- The choice between snapshot work and host send list: the source that was not last, when both have work (R165). -/
def sharedOffer (s : State) : Option Offer :=
  match snapshotWork s, s.tx.sendList with
  | some j, [] => some (.snapshot j)
  | none, e :: _ => some (.host e)
  | some j, e :: _ => if s.tx.lastSource = .hostList then some (.snapshot j) else some (.host e)
  | none, [] => none

/-- The frame offered: the first row of R165 that applies. -/
def offer (s : State) : Option Offer :=
  match s.tx.slot with
  | some sl => some (.again sl)
  | none =>
      match s.tx.drops.find? (·.cls == .settlement) with
      | some d => some (.drop d)
      | none =>
          match bundleInProgress s with
          | some b => some (.fragment b)
          | none => (serviceOffer s.tx).orElse fun _ => sharedOffer s

/-- The gap the offered frame needs (R158). -/
def offerGap (o : Offer) : GapKind :=
  match o with
  | .again sl => sl.gap
  | .drop d => if d.cls = .settlement then .repeatGap else .turn
  | .fragment _ => .followOn
  | .reply _ | .mend _ | .presence | .snapshot _ | .host _ => .turn

/-- An offer of a JOIN. -/
def offersJoin (o : Offer) : Bool :=
  match o with
  | .again sl => match sl.frame.body with
    | .join _ => true
    | _ => false
  | .host e => e.frame == .join
  | _ => false

/-- An offer of a PRESENCE. -/
def offersPresence (o : Offer) : Bool :=
  match o with
  | .again sl => sl.frame.body == .presence
  | .presence => true
  | _ => false

/-- The station state permits the offered frame (R76, R165). -/
def statePermits (st : StationState) (o : Offer) : Bool :=
  match st with
  | .unconfigured | .outside => false
  | .joinSent => offersJoin o
  | .awaitState | .filling => offersPresence o
  | .member | .leaving => true

/-! ### Building the frame (R166, R167) -/

/-- The reading of the station's own tables and cells that a frame's content takes at its build: images, carried
versions, cell records, MENDREPLY result. Cells that fail their verification become DAMAGED, and a mend may begin
(R62, R103, R104, R122, R166, R7, R118). -/
def readContent (b : Body) (s : State) : Body × State :=
  match b with
  | .write w =>
      (.write { w with records := w.records.map fun r => { r with version := carriedVersion r.cell s } }, s)
  | .snapState t _ => (.snapState t { members := s.mship.table, locks := s.locks }, s)
  | .snapCells t g _ =>
      let s := (List.finRange 8).foldl (fun s i => verifyForBuild (groupCell g i) s) s
      (.snapCells t g (Vector.ofFn fun i : Fin 8 => snapRecordOf (groupCell g i) s), beginMend s)
  | .mendReply t c _ =>
      let s := verifyForBuild c s
      (.mendReply t c (mendAnswerOf c s), beginMend s)
  | b => (b, s)

/-- The required set of a frame: every JOINING and MEMBER entry other than the sender, and for a DROP other than its
target (R167). A station with no table has none. -/
def requiredSet (b : Body) (s : State) : Flags16 :=
  let others := flagsOf fun x => x ≠ self s && isTableSender s.mship.table x
  match b with
  | .drop t _ => flagClear others t
  | _ => others

/-- For a SIGNAL to one station, whether that station stands in the required set (R131). -/
def targetInSet (b : Body) (required : Flags16) : Bool :=
  match b with
  | .signal (some t) _ => flag required t
  | _ => false

/-- A new frame built into the slot at its first transmission start: its sequence from the counter, its content read,
its required set fixed, its ticket SENDING (R166, R164). -/
def buildNew (b : Body) (ticket : Option TicketNo) (gap : GapKind) (s : State) : State :=
  let (body, s) := readContent b s
  let required := requiredSet body s
  let slot : Slot :=
    { frame := { head := { sender := self s, repeated := false, seq := s.tx.seq }, body := body }
      required := required, repeats := 0, heard := false, gap := gap, ticket := ticket
      targetIn := targetInSet body required }
  let s := s.withTx { s.tx with slot := some slot, seq := s.tx.seq + 1 }
  match ticket with
  | some k => advanceTicket k .sending s
  | none => s

/-- The frame in the slot made ready for its next transmission: heard, it is repeated with the repeat flag set and
nothing else changed, its header check following from its bytes (log 31); not heard, it is built again under its sequence
(R166, R160, R195). -/
def buildAgain (sl : Slot) (s : State) : State :=
  if sl.heard then
    s.withTx { s.tx with
      slot := some { sl with frame := { sl.frame with head := { sl.frame.head with repeated := true } } } }
  else
    let (body, s) := readContent sl.frame.body s
    let required := requiredSet body s
    s.withTx { s.tx with
      slot := some { sl with
        frame := { sl.frame with body := body }, required := required, targetIn := targetInSet body required } }

/-- The unread records of fragment k of a bundle: cells and data, the version to be read at the build (R61). -/
def fragmentRecords (b : Outgoing) (k : Nat) : List WriteRecord :=
  ((b.entries.drop (Config.fragmentRecords * k)).take Config.fragmentRecords).map fun e =>
    { cell := e.cell, version := 0, data := e.data }

/-- Fragment k of a bundle before its versions are read (R61). -/
def fragmentBody (b : Outgoing) (k : Nat) : Body :=
  let f := fragmentCount b.entries.length
  .write { more := decide (k + 1 < f), index := k, count := f, records := fragmentRecords b k }

/-- The frame of a host send list entry (R162). None: a COMMIT entry with no bundle (not reached). -/
def hostBody (f : SendFrame) (s : State) : Option Body :=
  match f with
  | .claim r => some (.claim r)
  | .yield r => some (.yield r)
  | .commit => s.bundle.outgoing.map fun b => fragmentBody b 0
  | .join => some (.join s.mship.departed)
  | .leave => some .leave
  | .signal t bytes => some (.signal t bytes)

/-- The snapshot frame that the cursor names, before its content is read (R99, R102). -/
def snapshotBody (joiner : Station) (s : State) : Body :=
  if s.sponsor.cursor = 0 then .snapState joiner { members := s.mship.table, locks := s.locks }
  else .snapCells joiner (Fin.ofNat 32 (s.sponsor.cursor - 1)) (Vector.replicate 8 .missing)

/-- The frame offered is built: its entry moves from its list into the slot (R166, R162, R163, R102). -/
def buildOffer (o : Offer) (s : State) : State :=
  match o with
  | .again sl => buildAgain sl s
  | .drop d =>
      buildNew (.drop d.target d.reason) none (offerGap o) (s.withTx { s.tx with drops := s.tx.drops.erase d })
  | .fragment b => buildNew (fragmentBody b b.next) none (offerGap o) s
  | .reply r =>
      buildNew (.mendReply r.requester r.cell .noCopy) none (offerGap o)
        (s.withTx { s.tx with replies := s.tx.replies.tail })
  | .mend m => buildNew (.mend m.responder m.cell) none (offerGap o) (s.withTx { s.tx with mend := none })
  | .presence => buildNew .presence none (offerGap o) (s.withTx { s.tx with presence := false })
  | .snapshot j =>
      let body := snapshotBody j s
      let s := s.withTx { s.tx with lastSource := .snapshot }
      buildNew body none (offerGap o) (s.withSponsor { s.sponsor with cursor := s.sponsor.cursor + 1 })
  | .host e =>
      match hostBody e.frame s with
      | some body =>
          buildNew body e.ticket (offerGap o)
            (s.withTx { s.tx with sendList := s.tx.sendList.tail, lastSource := .hostList })
      | none => s.withTx { s.tx with sendList := s.tx.sendList.tail }

/-! ### Transmission start (R159) -/

/-- The frame that may start now: offered, its gap passed, bus IDLE, no hold-off, listening met, state permitting
(R159). -/
def startable (s : State) : Option Offer :=
  if s.bus.state = .idle ∧ s.access.holdOff = none ∧ s.mship.listening then
    (offer s).filter fun o => statePermits s.mship.state o && decide (gapSlots (offerGap o) s ≤ s.access.gapCount)
  else none

/-- The Bus Interface begins to send: buffer and record emptied (R143, R145, R147). -/
def busSending (s : State) : State :=
  s.withBus { s.bus with state := .sending, buffer := [], record := .empty }

/-- A transmission start of the frame that may start, if one may (R159); the presence timer restarts (R92). -/
def startTransmission (s : State) : State :=
  match startable s with
  | some o =>
      let s := buildOffer o s
      if s.tx.slot.isSome then restartPresence (busSending s) else s
  | none => s

end Sys2Proof.Machine
end

