-- ==== Sys2Proof/Machine/Settle.lean ====
section
/-! DEFINITION. Settlement (chapter 10): the judgement of an ack map, what a settlement does to tickets and blocks,
settlement DROPs, founding, and the disposal at a line fault. -/

namespace Sys2Proof.Machine

/-- The slot replaced. -/
def setSlot (sl : Option Slot) (s : State) : State := s.withTx { s.tx with slot := sl }

/-- A frame in the slot that needs a repeat: it stays, with the repeat gap (R168, R158). -/
def repeatDue (sl : Slot) (s : State) : State := setSlot (some { sl with gap := .repeatGap }) s

/-- One settlement DROP(x, NO_ACK) queued behind those already queued; a turn-class DROP naming x becomes it, and a
settlement DROP naming x already stands for it (R163, R169). -/
def queueSettlementDrop (s : State) (x : Station) : State :=
  if s.tx.drops.any fun d => d.target == x && d.cls == .settlement then s
  else s.withTx { s.tx with
    drops := s.tx.drops.filter (·.target != x) ++ [{ target := x, reason := .noAck, cls := .settlement }] }

/-- The settlement DROPs of the missing stations, in increasing station number (R169). -/
def queueSettlementDrops (missing : Flags16) (s : State) : State :=
  (stations.filter (flag missing)).foldl queueSettlementDrop s

/-- The outcome of a SIGNAL at its settlement (R131). -/
def signalOutcome (sl : Slot) (target : Option Station) (map : Flags16) : Completion :=
  match target with
  | none => .delivered
  | some t => if sl.targetIn && flag map t then .delivered else .notDelivered

/-- The settled MEND belongs to the current mend: its cell and responder are the current mend's, and no later MEND of
that mend waits in the slot of the service queue (R120, log 24). -/
def mendBelongs (target : Station) (c : CellIx) (s : State) : Bool :=
  currentCell s.mend == some c && s.mend.current.any (·.responder == target) && s.tx.mend.isNone

/-- The ticket of a settled CLAIM becomes WAITING when it is still SENDING (R39, R172). A ticket granted at the
application is DONE, and its number may by now name a newer request, which is not SENDING (R182, log 26). -/
def awaitGrant (k : TicketNo) (s : State) : State :=
  if s.port.tickets[k].any (·.state == .sending) then advanceTicket k .waiting s else s

/-- What a settlement does to the ticket and the owning block (R172). A fragment whose bundle was broken can settle
after the host has committed another, which has not begun: it moves no index of that one (R71, R63, log 26). -/
def settleEffects (sl : Slot) (map : Flags16) (s : State) : State :=
  match sl.frame.body with
  | .claim _ => match sl.ticket with
      | some k => awaitGrant k s
      | none => s
  | .write w =>
      match s.bundle.outgoing with
      | some b =>
          if w.more ∧ bundleBegun b s then s.withBundle { s.bundle with outgoing := some { b with next := b.next + 1 } }
          else s
      | none => s
  | .signal t _ => match sl.ticket with
      | some k => complete k (signalOutcome sl t map) s
      | none => s
  | .leave => match sl.ticket with
      | some k => complete k .done s
      | none => s
  | .mend t c =>
      if mendBelongs t c s then
        s.withMend { s.mend with
          current := s.mend.current.map fun m => { m with window := some Config.mendWindow } }
      else s
  | .presence | .join _ | .drop _ _ | .yield _ | .snapState _ _ | .snapCells _ _ _ | .mendReply _ _ _ => s

/-- A settlement: ticket, owning block, settlement DROPs for the missing stations but after a LEAVE or a FILLING
station's frame, then the departure of a LEAVE (R172, R169, R171, R88). -/
def settle (sl : Slot) (missing map : Flags16) (s : State) : State :=
  let s := settleEffects sl map (setSlot none s)
  if sl.frame.body = .leave then depart .leave s
  else if s.mship.state = .filling then s
  else queueSettlementDrops missing s

/-- The founding of a group at the settlement of a JOIN of sequence q that drew no ack (R85, R13, R35, R98). -/
def found (q : Seq) (s : State) : State :=
  let x := self s
  let s := { s with
    cells := s.cells.map foundCell
    apply := { doubt := .clear, foreign := 0, staging := none }
    locks := Vector.replicate 16 freeRegion
    mship := { s.mship with
      state := .member
      table := (Vector.replicate 16 absentEntry).set x.val { absentEntry with state := .member, lastSeq := q }
      silence := Vector.replicate 16 none
      presence := some Config.presenceInterval }
    sponsor := { joiners := [], cursor := 0 }
    mend := { cells := [], current := none } }
  match liveKind s.port .join with
  | some k => complete k .founded s
  | none => postNotice (.memberIn x) s

/-- An own JOIN settled with an ack: AWAIT_STATE, ticket WAITING, presence timer started (R80). -/
def joinAcked (sl : Slot) (s : State) : State :=
  let s := startPresence (setStation .awaitState (setSlot none s))
  match sl.ticket with
  | some k => advanceTicket k .waiting s
  | none => s

/-- The repeats of the frame are used up (R168). -/
def exhausted (sl : Slot) (s : State) : Bool := decide (s.mship.repeatLimit.getD 0 ≤ sl.repeats)

/-- The judgement of the JOIN of a JOIN_SENT station on any ack but at its own position (R170, R80). -/
def judgeJoin (sl : Slot) (map : Flags16) (s : State) : State :=
  if flagClear map (self s) ≠ 0 then joinAcked sl s
  else if exhausted sl s then found sl.frame.head.seq (setSlot none s)
  else repeatDue sl s

/-- The judgement of the PRESENCE of an AWAIT_STATE station on any ack but at its own position (R170). -/
def judgeAwaiting (sl : Slot) (map : Flags16) (s : State) : State :=
  if flagClear map (self s) ≠ 0 then setSlot none s
  else if exhausted sl s then depart .isolated (setSlot none s)
  else repeatDue sl s

/-- The judgement of a table holder's frame against its required set (R168, R171). A PRESENCE built in AWAIT_STATE and
judged in FILLING has an empty set and settles (log 27). -/
def judgeRequired (sl : Slot) (map : Flags16) (s : State) : State :=
  let missing := sl.required &&& ~~~map
  if missing = 0 then settle sl 0 map s
  else if !exhausted sl s then repeatDue sl s
  else if sl.required &&& map ≠ 0 then settle sl missing map s
  else depart .isolated (setSlot none s)

/-- The judgement of the window that followed a transmission of the slot's frame with a good echo (R168, R170). -/
def judge (map : Flags16) (s : State) : State :=
  match s.tx.slot with
  | none => s
  | some sl =>
      match s.mship.state with
      | .joinSent => judgeJoin sl map s
      | .awaitState => judgeAwaiting sl map s
      | .unconfigured | .outside | .filling | .member | .leaving => judgeRequired sl map s

/-- The disposal at the window end that follows the eighth collision: a frame never heard, and the JOIN of a JOIN_SENT
station, are kept; any other heard frame is judged exhausted with no ack, and the station departs ISOLATED (R161). -/
def disposeAtLineFault (s : State) : State :=
  match s.tx.slot with
  | none => s
  | some sl => if sl.heard ∧ s.mship.state ≠ .joinSent then depart .isolated (setSlot none s) else s

/-- The signs of life that an ack map shows: every peer whose position is driven (R91). -/
def ackedPeers (map : Flags16) (s : State) : State :=
  (stations.filter fun x => flag map x && x != self s).foldl (fun s x => signOfLife x s) s

end Sys2Proof.Machine
end

