-- ==== Sys2Proof/Machine/Line.lean ====
section
/-! DEFINITION. The line code of a byte (R141) in both directions: the ten levels that a byte is sent as, and the byte
that a receiver assembles from the ten levels sampled. -/

namespace Sys2Proof.Machine

/-- A data bit on the line: driven for 0, released for 1 (R141). -/
def bitLevel (b : Bool) : Level := if b then .released else .driven

/-- The data bit that a sampled level stands for (R141). -/
def levelBit (l : Level) : Bool :=
  match l with
  | .driven => false
  | .released => true

/-- A byte on the line: start bit driven, data bits least significant first, stop bit released (R141). -/
def lineByte (b : Byte) : LineByte :=
  { start := .driven, data := Vector.ofFn fun i : Fin 8 => bitLevel (b.getLsbD i.val), stop := .released }

/-- A byte is framed when its start bit is sampled driven and its stop bit released (R141). -/
def isFramed (c : LineByte) : Bool := c.start == .driven && c.stop == .released

/-- The byte of eight sampled data bits, the first to arrive least significant (R141). -/
def byteOf (c : LineByte) : Byte :=
  BitVec.ofBool (levelBit c.data[7]) ++ BitVec.ofBool (levelBit c.data[6]) ++ BitVec.ofBool (levelBit c.data[5])
    ++ BitVec.ofBool (levelBit c.data[4]) ++ BitVec.ofBool (levelBit c.data[3]) ++ BitVec.ofBool (levelBit c.data[2])
    ++ BitVec.ofBool (levelBit c.data[1]) ++ BitVec.ofBool (levelBit c.data[0])

/-- The bytes a receiver assembles: those framed before the first that is not (R141, R145). -/
def assembled (h : Heard) : List Byte := (h.line.takeWhile isFramed).map byteOf

/-- An unframed byte stopped the assembly (R141, R145). -/
def stoppedUnframed (h : Heard) : Bool := h.line.any (!isFramed ·)

/-- Bytes as they are sent: each in its line code, with no interval between them (R141). -/
def onLine (bytes : List Byte) : Heard := { line := bytes.map lineByte }

end Sys2Proof.Machine
end

