-- ==== Sys2Proof/Machine/Wire.lean ====
section
/-! DEFINITION. The wire formats of frames (chapter 12) in both directions, and the class in which a receiver hands
what it heard (R19, R146). -/

namespace Sys2Proof.Machine

/-! ### Sending side (R193, R194) -/

/-- A station number as a byte. -/
def stationByte (x : Station) : Byte := BitVec.ofNat 8 x.val

/-- A station number or FFh for none (or all). -/
def optStationByte (x : Option Station) : Byte :=
  match x with
  | some y => stationByte y
  | none => 0xFF

/-- The kind code of a frame (12.1). -/
def kindCode (b : Body) : Byte :=
  match b with
  | .presence => 0x11
  | .join _ => 0x12
  | .leave => 0x13
  | .drop _ _ => 0x14
  | .claim _ => 0x21
  | .yield _ => 0x22
  | .write _ => 0x31
  | .snapState _ _ => 0x41
  | .snapCells _ _ _ => 0x42
  | .mend _ _ => 0x51
  | .mendReply _ _ _ => 0x52
  | .signal _ _ => 0x61

/-- The target byte of a frame (12.1). -/
def targetByte (b : Body) : Byte :=
  match b with
  | .drop t _ | .snapState t _ | .snapCells t _ _ | .mend t _ | .mendReply t _ _ => stationByte t
  | .signal t _ => optStationByte t
  | .presence | .join _ | .leave | .claim _ | .yield _ | .write _ => 0xFF

/-- The more flag of a frame (R193). -/
def moreFlag (b : Body) : Bool :=
  match b with
  | .write w => w.more
  | .presence | .join _ | .leave | .drop _ _ | .claim _ | .yield _ | .snapState _ _ | .snapCells _ _ _ => false
  | .mend _ _ | .mendReply _ _ _ | .signal _ _ => false

/-- The reason byte of a DROP (R194). -/
def reasonByte (r : DropReason) : Byte :=
  match r with
  | .silent => 0x01
  | .noAck => 0x02

/-- One WRITE record: cell, version, data (R194). -/
def writeRecordBytes (r : WriteRecord) : List Byte :=
  BitVec.ofNat 8 r.cell.val :: versionBytes r.version ++ r.data.toList

/-- The state code of a membership entry (R194). -/
def entryStateCode (e : EntryState) : BitVec 2 :=
  match e with
  | .absent => 0
  | .joining => 1
  | .member => 2

/-- One membership entry of three bytes: state and join place, last sequence, sponsor (R194). -/
def memberEntryBytes (e : MemberEntry) : List Byte :=
  [entryStateCode e.state ++ 0#2 ++ BitVec.ofNat 4 (e.joinPlace.getD 15), e.lastSeq, optStationByte e.sponsor]

/-- One lock entry: holder, waiter count, waiters oldest first (R194). -/
def regionEntryBytes (e : RegionEntry) : List Byte :=
  optStationByte e.holder :: BitVec.ofNat 8 e.waiters.length :: e.waiters.map stationByte

/-- One SNAPCELLS record: presence, version, data; a missing record's version and data are zero (R194). -/
def snapRecordBytes (r : SnapRecord) : List Byte :=
  match r with
  | .present v d => 0x01 :: versionBytes v ++ d.toList
  | .missing => 0x00 :: versionBytes 0 ++ zeroData.toList

/-- The payload of a frame (R194). -/
def payloadBytes (b : Body) : List Byte :=
  match b with
  | .presence | .leave => []
  | .join rejoin => [if rejoin then 0x01 else 0x00]
  | .drop _ r => [reasonByte r]
  | .claim r | .yield r => [BitVec.ofNat 8 r.val]
  | .write w => BitVec.ofNat 8 w.index :: BitVec.ofNat 8 w.count :: BitVec.ofNat 8 w.records.length
      :: w.records.flatMap writeRecordBytes
  | .snapState _ im => im.members.toList.flatMap memberEntryBytes ++ im.locks.toList.flatMap regionEntryBytes
  | .snapCells _ g rs => BitVec.ofNat 8 g.val :: rs.toList.flatMap snapRecordBytes
  | .mend _ c => [BitVec.ofNat 8 c.val]
  | .mendReply _ c a => match a with
      | .data v d => BitVec.ofNat 8 c.val :: 0x01 :: versionBytes v ++ d.toList
      | .noCopy => BitVec.ofNat 8 c.val :: 0x00 :: versionBytes 0 ++ zeroData.toList
  | .signal _ bytes => BitVec.ofNat 8 bytes.length :: bytes

/-- A flag as one bit. -/
def bit (b : Bool) : BitVec 1 := BitVec.ofBool b

/-- Header bytes 0 to 5 of a frame with a payload of `len` bytes (12.1, R193). -/
def headerBytes (f : Frame) (len : Nat) : List Byte :=
  [kindCode f.body,
   BitVec.ofNat 4 f.head.sender.val ++ bit f.head.repeated ++ bit (moreFlag f.body) ++ 0#2,
   f.head.seq, targetByte f.body] ++ wordBytes (BitVec.ofNat 16 len)

/-- The bytes of a frame on the line, both checks included, each computed over the bytes it goes with (12.1, R195). The
header check of a repeat is so computed over its own header, repeat flag set, and differs from the original's (log 31). -/
def frameBytes (f : Frame) : List Byte :=
  let payload := payloadBytes f.body
  let header := headerBytes f payload.length
  header ++ headerCheck header :: (payload ++ wordBytes (payloadCheck payload))

/-! ### Receiving side (R146, R193, R194) -/

/-- A station byte 00h to 0Fh. -/
def parseStation (b : Byte) : Option Station := if h : b.toNat < 16 then some ⟨b.toNat, h⟩ else none

/-- A station byte 00h to 0Fh, or FFh for none. -/
def parseOptStation (b : Byte) : Option (Option Station) :=
  if b = 0xFF then some none else (parseStation b).map some

/-- A cell byte; every value is a cell. -/
def parseCell (b : Byte) : CellIx := ⟨b.toNat, b.isLt⟩

/-- A list of exactly n elements as a vector. -/
def toVector (n : Nat) {α : Type} (l : List α) : Option (Vector α n) :=
  if h : l.length = n then some ⟨l.toArray, by simpa using h⟩ else none

/-- The four version bytes and 32 data bytes at the front of a list, and what follows them. -/
def parseVersionData (l : List Byte) : Option (Version × CellData × List Byte) :=
  match l with
  | a :: b :: c :: d :: rest => (toVector 32 (rest.take 32)).map fun v => (versionOfBytes a b c d, v, rest.drop 32)
  | _ => none

/-- k WRITE records that fill the list exactly (R194). -/
def parseWriteRecords (k : Nat) (l : List Byte) : Option (List WriteRecord) :=
  match k, l with
  | 0, [] => some []
  | k + 1, c :: rest =>
      match parseVersionData rest with
      | some (v, d, tail) => (parseWriteRecords k tail).map ({ cell := parseCell c, version := v, data := d } :: ·)
      | none => none
  | _, _ => none

/-- One SNAPCELLS record and what follows it: present with any version, missing with version 0 and data not checked
(R194). -/
def parseSnapRecord (l : List Byte) : Option (SnapRecord × List Byte) :=
  match l with
  | p :: rest =>
      match parseVersionData rest with
      | some (v, d, tail) =>
          if p = 0x01 then some (.present v d, tail)
          else if p = 0x00 ∧ v = 0 then some (.missing, tail)
          else none
      | none => none
  | [] => none

/-- k SNAPCELLS records that fill the list exactly. -/
def parseSnapRecords (k : Nat) (l : List Byte) : Option (List SnapRecord) :=
  match k with
  | 0 => if l = [] then some [] else none
  | k + 1 =>
      match parseSnapRecord l with
      | some (r, tail) => (parseSnapRecords k tail).map (r :: ·)
      | none => none

/-- A membership state code (R194). -/
def parseEntryState (b : BitVec 2) : Option EntryState :=
  if b = 0 then some .absent else if b = 1 then some .joining else if b = 2 then some .member else none

/-- One membership entry of three bytes (R194). -/
def parseMemberEntry (b0 b1 b2 : Byte) : Option MemberEntry :=
  match parseEntryState (b0.extractLsb' 6 2), parseOptStation b2 with
  | some st, some sp =>
      if b0.extractLsb' 4 2 = 0#2 then
        let p := (b0.extractLsb' 0 4).toNat
        some { state := st, lastSeq := b1, sponsor := sp, joinPlace := if p = 15 then none else some p }
      else none
  | _, _ => none

/-- k membership entries at the front of a list, and what follows them. -/
def parseMemberEntries (k : Nat) (l : List Byte) : Option (List MemberEntry × List Byte) :=
  match k, l with
  | 0, l => some ([], l)
  | k + 1, b0 :: b1 :: b2 :: rest =>
      match parseMemberEntry b0 b1 b2, parseMemberEntries k rest with
      | some e, some (es, tail) => some (e :: es, tail)
      | _, _ => none
  | _, _ => none

/-- Station bytes, each in range. -/
def parseStations (l : List Byte) : Option (List Station) :=
  match l with
  | [] => some []
  | b :: rest =>
      match parseStation b, parseStations rest with
      | some x, some xs => some (x :: xs)
      | _, _ => none

/-- One lock entry at the front of a list, and what follows it; a waiter count above 15 is out of range (R194). -/
def parseRegionEntry (l : List Byte) : Option (RegionEntry × List Byte) :=
  match l with
  | h :: w :: rest =>
      if w.toNat ≤ 15 ∧ w.toNat ≤ rest.length then
        match parseOptStation h, parseStations (rest.take w.toNat) with
        | some holder, some ws => some ({ holder := holder, waiters := ws }, rest.drop w.toNat)
        | _, _ => none
      else none
  | _ => none

/-- k lock entries that fill the list exactly. -/
def parseRegionEntries (k : Nat) (l : List Byte) : Option (List RegionEntry) :=
  match k with
  | 0 => if l = [] then some [] else none
  | k + 1 =>
      match parseRegionEntry l with
      | some (e, tail) => (parseRegionEntries k tail).map (e :: ·)
      | none => none

/-- The two images of a SNAPSTATE payload. -/
def parseImages (l : List Byte) : Option Images :=
  match parseMemberEntries 16 l with
  | some (ms, rest) =>
      match parseRegionEntries 16 rest with
      | some rs =>
          match toVector 16 ms, toVector 16 rs with
          | some mv, some rv => some { members := mv, locks := rv }
          | _, _ => none
      | none => none
  | none => none

/-- The reason byte of a DROP. -/
def parseReason (b : Byte) : Option DropReason :=
  if b = 0x01 then some .silent else if b = 0x02 then some .noAck else none

/-- A region byte 00h to 0Fh. -/
def parseRegion (b : Byte) : Option Region := parseStation b

/-- The result of a MENDREPLY with its version and data; NONE with a version other than 0 is malformed (R123, R194). -/
def parseMendAnswer (r : Byte) (l : List Byte) : Option MendAnswer :=
  match parseVersionData l with
  | some (v, d, []) =>
      if r = 0x01 then some (.data v d)
      else if r = 0x00 ∧ v = 0 then some .noCopy
      else none
  | _ => none

/-- The kinds whose target must be FFh, by code, more flag and payload (12.1, R194). -/
def parseUntargeted (kind : Byte) (more : Bool) (payload : List Byte) : Option Body :=
  if kind = 0x31 then
    match payload with
    | i :: n :: k :: rest =>
        (parseWriteRecords k.toNat rest).map fun rs =>
          .write { more := more, index := i.toNat, count := n.toNat, records := rs }
    | _ => none
  else if more then none
  else if kind = 0x11 then (if payload = [] then some .presence else none)
  else if kind = 0x13 then (if payload = [] then some .leave else none)
  else match payload with
    | [b] =>
        if kind = 0x12 then (if b = 0x00 then some (.join false) else if b = 0x01 then some (.join true) else none)
        else if kind = 0x21 then (parseRegion b).map .claim
        else if kind = 0x22 then (parseRegion b).map .yield
        else none
    | _ => none

/-- The kinds targeted at one station, by code and payload (12.1, R194). -/
def parseTargeted (kind : Byte) (t : Station) (payload : List Byte) : Option Body :=
  if kind = 0x14 then
    match payload with
    | [b] => (parseReason b).map (.drop t)
    | _ => none
  else if kind = 0x41 then (parseImages payload).map (.snapState t)
  else if kind = 0x42 then
    match payload with
    | g :: rest =>
        if h : g.toNat < 32 then
          match parseSnapRecords 8 rest with
          | some rs => (toVector 8 rs).map (.snapCells t ⟨g.toNat, h⟩)
          | none => none
        else none
    | [] => none
  else if kind = 0x51 then
    match payload with
    | [c] => some (.mend t (parseCell c))
    | _ => none
  else if kind = 0x52 then
    match payload with
    | c :: r :: rest => (parseMendAnswer r rest).map (.mendReply t (parseCell c))
    | _ => none
  else none

/-- A SIGNAL's payload: its byte count, then that many bytes (R194). -/
def parseSignal (t : Option Station) (payload : List Byte) : Option Body :=
  match payload with
  | n :: rest => if n.toNat = rest.length then some (.signal t rest) else none
  | [] => none

/-- The kind codes whose target column shows FFh (12.1). -/
def untargetedKind (kind : Byte) : Bool :=
  kind == 0x11 || kind == 0x12 || kind == 0x13 || kind == 0x21 || kind == 0x22 || kind == 0x31

/-- The body of a frame from its header fields and payload (12.1, R193, R194). None: malformed. -/
def parseBody (kind target : Byte) (more : Bool) (payload : List Byte) : Option Body :=
  if untargetedKind kind then
    if target = 0xFF then parseUntargeted kind more payload else none
  else if more then none
  else if kind = 0x61 then
    match parseOptStation target with
    | some t => parseSignal t payload
    | none => none
  else match parseStation target with
    | some t => parseTargeted kind t payload
    | none => none

/-- The class of a frame at carrier end (R19). -/
inductive FrameClass where
  | good (f : Frame)
  | damagedKnown (sender : Station) (repeated : Bool) (seq : Seq)
  | damagedUnknown
deriving DecidableEq, Repr

/-- The sender nibble of the second header byte (12.1). -/
def senderOf (b1 : Byte) : Station := ⟨(b1.extractLsb' 4 4).toNat, (b1.extractLsb' 4 4).isLt⟩

/-- The judgement of the bytes after the header check has passed, at station n: known damage, malformed or good
(R146). -/
def judgeKnown (n : Station) (unframed : Bool) (kind b1 seq target l1 l0 : Byte) (rest : List Byte) : FrameClass :=
  let len := (l1 ++ l0).toNat
  let known := FrameClass.damagedKnown (senderOf b1) (b1.getLsbD 3) seq
  let payload := rest.take len
  if unframed ∨ len > Config.maxPayload ∨ rest.length ≠ len + 2
      ∨ rest.drop len ≠ wordBytes (payloadCheck payload) then known
  else if b1.extractLsb' 0 2 ≠ 0#2 then known
  else match parseBody kind target (b1.getLsbD 2) payload with
    | some body =>
        let f : Frame := { head := { sender := senderOf b1, repeated := b1.getLsbD 3, seq := seq }, body := body }
        if frameOkAt n f then .good f else known
    | none => known

/-- The class of what the station numbered n sampled on the line, with the start mark seen or not (R19, R141, R146). -/
def classify (n : Station) (startMark : Bool) (h : Heard) : FrameClass :=
  match assembled h with
  | b0 :: b1 :: b2 :: b3 :: b4 :: b5 :: b6 :: rest =>
      if startMark ∧ headerCheck [b0, b1, b2, b3, b4, b5] = b6 then
        judgeKnown n (stoppedUnframed h) b0 b1 b2 b3 b4 b5 rest
      else .damagedUnknown
  | _ => .damagedUnknown

/-- The class of a frame given by its fields, as it was sent whole: good when the start mark was seen and this
station's field checks pass, malformed when they fail (R19, R146). -/
def classOfFrame (n : Station) (startMark : Bool) (f : Frame) : FrameClass :=
  if startMark then
    if frameOkAt n f then .good f else .damagedKnown f.head.sender f.head.repeated f.head.seq
  else .damagedUnknown

/-- The verdict of the header check on the bytes assembled: made when the seventh byte is framed, over the first six
(R145). -/
def headerVerdict (bytes : List Byte) : HeaderVerdict :=
  match bytes with
  | b0 :: b1 :: b2 :: b3 :: b4 :: b5 :: b6 :: _ =>
      if headerCheck [b0, b1, b2, b3, b4, b5] = b6 then .passes else .fails
  | _ => .notMade

end Sys2Proof.Machine
end

