-- ==== Sys2Proof/Machine/Bus.lean ====
section
/-! DEFINITION. The Bus Interface's events (chapter 9): carrier begin, carrier ends, collisions, ack window ends, and
the reports they make to the Access Timer (R156, R160). -/

namespace Sys2Proof.Machine

/-- Carrier begins with a driven run of half bit times: RECEIVING, buffer and record emptied, the start mark judged; a
run shorter than half a bit time begins nothing (R140, R144, R145). The start mark is seen when an idle slot preceded
a run of 7 to 9 bit times (R144). -/
def beginCarrier (halfBits : Nat) (idleSlot : Bool) (s : State) : State :=
  if s.bus.state = .idle ∧ 1 ≤ halfBits then
    s.withBus { s.bus with
      state := .receiving
      buffer := []
      record := { ReceiveRecord.empty with startMark := idleSlot && decide (14 ≤ halfBits) && decide (halfBits ≤ 18) } }
  else s

/-- The listening condition is met and the listen timer stops; in UNCONFIGURED nothing counts (R77). -/
def meetListening (s : State) : State :=
  if s.mship.state = .unconfigured then s
  else s.withMship { s.mship with listening := true, listen := none }

/-- The reference sender replaced (R156). -/
def setReference (x : Option Station) (s : State) : State := s.withAccess { s.access with reference := x }

/-- The bytes assembled from the levels sampled stand in the buffer and the receive record (R141, R145); without a start
mark no byte is assembled (R144). -/
def recordHeard (startMark : Bool) (h : Heard) (s : State) : State :=
  if startMark then
    s.withBus { s.bus with
      buffer := (assembled h).take Config.maxFrameBytes
      record := { startMark := true, framed := (assembled h).length, unframed := stoppedUnframed h,
                  header := headerVerdict (assembled h) } }
  else s.withBus { s.bus with buffer := [], record := .empty }

/-- The ack window that follows a carrier end, with this station's decision and the report to its transmitter (R143,
R150). -/
def enterAckWindow (drive : Bool) (report : EndReport) (s : State) : State :=
  s.withBus { s.bus with state := .ackWindow, ackDrive := drive, report := report }

/-- A frame that this station did not drive is handed to the Apply Unit in its class, with the reference sender's and
the listening condition's reports; the result says whether it is acked (R19, R20, R22, R28, R146, R156). -/
def handFrame (cls : FrameClass) (s : State) : State × Bool :=
  match cls with
  | .good f => handlePeer f (meetListening (setReference (some f.head.sender) s))
  | .damagedKnown x _ q => (handleDamagedKnown x q (setReference none s), false)
  | .damagedUnknown => (handleDamagedUnknown (setReference none s), false)

/-- The carrier end of a carrier that this station did not drive (R146). -/
def heardEnd (startMark : Bool) (h : Heard) (cls : FrameClass) (s : State) : State :=
  let r := handFrame cls (recordHeard startMark h s)
  enterAckWindow r.2 .heard r.1

/-- The carrier end of this station's own transmission with a good echo (R148, R27): collision count 0, reference
sender this station, a repeat counted, the first good echo applied (R156, R160, R168). -/
def ownEnd (sl : Slot) (s : State) : State :=
  let s := recordHeard true (onLine (frameBytes sl.frame)) s
  let s := meetListening (s.withAccess { s.access with reference := some (self s), collisions := 0 })
  let s := setSlot (some { sl with heard := true, gap := .repeatGap
                                   repeats := if sl.heard then sl.repeats + 1 else sl.repeats }) s
  enterAckWindow false .ownGood (handleOwn sl.frame sl.ticket (!sl.heard) s)

/-- The carrier end of a frame given by its fields. SENDING: it is this station's own frame, and nothing else can end
its carrier with a good echo. RECEIVING: it is judged with the start mark as recorded. IDLE: its carrier is taken to
have begun with its start mark (log 7). ACK_WINDOW: no frame is recognised (R143). -/
def carrierEnd (f : Frame) (s : State) : State :=
  match s.bus.state with
  | .sending => match s.tx.slot with
      | some sl => if sl.frame = f then ownEnd sl s else s
      | none => s
  | .receiving =>
      heardEnd s.bus.record.startMark (onLine (frameBytes f))
        (classOfFrame (self s) s.bus.record.startMark f) s
  | .idle => heardEnd true (onLine (frameBytes f)) (classOfFrame (self s) true f) s
  | .ackWindow => s

/-- The carrier end of what was sampled byte by byte, in the class the receive checks find (R141, R146). -/
def heardBytesEnd (h : Heard) (s : State) : State :=
  match s.bus.state with
  | .receiving => heardEnd s.bus.record.startMark h (classify (self s) s.bus.record.startMark h) s
  | .idle => heardEnd true h (classify (self s) true h) s
  | .sending | .ackWindow => s

/-- The collision report at the Access Timer: reference sender unset, the count rises, and at 8 LINE_FAULT is posted
and the hold-off starts (R156, R160, R161). -/
def reportCollision (s : State) : State :=
  let count := min Config.collisionLimit (s.access.collisions + 1)
  let s' := s.withAccess { s.access with reference := none, collisions := count }
  if s.access.collisions < Config.collisionLimit ∧ count = Config.collisionLimit then
    postNotice .lineFault (s'.withAccess { s'.access with holdOff := some Config.holdOffSlots })
  else s'

/-- A WRITE fragment that no station has heard and whose bundle has been given up does not stay in the slot (R73,
log 17). -/
def dropOrphanFragment (s : State) : State :=
  if s.bundle.outgoing = none then abandonUnheardFragment s else s

/-- A collision of this station's transmission, to the carrier end that follows its collision mark (R149, R160): what
its receiver heard is handed in its class like any frame of a peer, then the collision is reported (log 21). -/
def collide (startMark : Bool) (h : Heard) (s : State) : State :=
  if s.bus.state = .sending then
    let r := handFrame (classify (self s) startMark h) (recordHeard startMark h s)
    enterAckWindow r.2 .collided (reportCollision (dropOrphanFragment r.1))
  else s

/-- The end of an ack window (R151): the map recorded as sampled (log 23); after an own frame with a good echo the
settlement judged; after the eighth collision the line-fault disposal; the presence timer restarted when the own position
was driven; the signs of life; then IDLE with the gap count at 0 (R150, R158, R168, R161, R91, R92). -/
def endAckWindow (map : Flags16) (s : State) : State :=
  if s.bus.state = .ackWindow then
    let drove := s.bus.ackDrive
    let report := s.bus.report
    let s := s.withBus { s.bus with state := .idle, ackMap := map, ackDrive := false, report := .heard }
    let s := s.withAccess { s.access with gapCount := 0 }
    let s := if drove then restartPresence s else s
    let s := ackedPeers map s
    match report with
    | .ownGood => judge map s
    | .collided => if s.access.collisions = Config.collisionLimit then disposeAtLineFault s else s
    | .heard => s
  else s

end Sys2Proof.Machine
end

