-- ==== Sys2Proof/Machine/Flags.lean ====
section
/-! DEFINITION. The port status byte (R176), the attention line (R187) and the code values of the port formats (12.4). -/

namespace Sys2Proof.Machine

/-- A station state's code (12.4). -/
def stationStateCode (st : StationState) : BitVec 3 :=
  match st with
  | .unconfigured => 0
  | .outside => 1
  | .joinSent => 2
  | .awaitState => 3
  | .filling => 4
  | .member => 5
  | .leaving => 6

/-- ATTN is low while the notice queue holds an entry (R187). -/
def attnLow (s : State) : Bool := !s.port.notices.isEmpty

/-- READY: the port state is IDLE (R176). -/
def readyFlag (p : PortPhase) : Bool :=
  match p with
  | .idle => true
  | .working _ | .holding _ => false

/-- RESP: a response is held (R176). -/
def respFlag (p : PortPhase) : Bool :=
  match p with
  | .holding _ => true
  | .idle | .working _ => false

/-- The port status byte: READY, RESP, ATTN, REFUSED_LAST, NOTICES_DROPPED, station state (R176, 12.4). -/
def statusByte (s : State) : Byte :=
  BitVec.ofBool (readyFlag s.port.phase) ++ BitVec.ofBool (respFlag s.port.phase) ++ BitVec.ofBool (attnLow s)
    ++ BitVec.ofBool s.port.refusedLast ++ BitVec.ofBool s.port.noticesDropped ++ stationStateCode s.mship.state

/-- The result codes' values (12.4). -/
def resultByte (c : ResultCode) : Byte :=
  match c with
  | .ok => 0x00
  | .accepted => 0x01
  | .pending => 0x02
  | .none => 0x03
  | .framing => 0x04
  | .badRequest => 0x05
  | .badArg => 0x06
  | .wrongState => 0x07
  | .notHolder => 0x08
  | .notWaiting => 0x09
  | .already => 0x0A
  | .draftFull => 0x0B
  | .draftOpen => 0x0C
  | .bundlePending => 0x0D
  | .noTicket => 0x0E
  | .noTarget => 0x0F
  | .empty => 0x10

/-- A request kind as its request code (12.4). -/
def requestKindByte (k : RequestKind) : Byte :=
  match k with
  | .join => 0x10
  | .leave => 0x11
  | .claim => 0x12
  | .release => 0x13
  | .withdraw => 0x14
  | .commit => 0x15
  | .signal => 0x16

/-- The completion outcomes' values (12.4). -/
def completionByte (o : Completion) : Byte :=
  match o with
  | .done => 0x01
  | .granted => 0x02
  | .withdrawn => 0x03
  | .released => 0x04
  | .applied => 0x05
  | .refused => 0x06
  | .delivered => 0x07
  | .notDelivered => 0x08
  | .cancelled => 0x09
  | .lost => 0x0A
  | .joined => 0x0B
  | .founded => 0x0C

/-- The MEMBER_OUT reasons' values (12.4). -/
def outReasonByte (r : OutReason) : Byte :=
  match r with
  | .silent => 0x01
  | .noAck => 0x02
  | .leave => 0x03
  | .rejoin => 0x04
  | .restart => 0x05

/-- The LEFT_GROUP reasons' values (12.4). -/
def departReasonByte (r : DepartReason) : Byte :=
  match r with
  | .leave => 0x01
  | .dropped => 0x02
  | .isolated => 0x03
  | .outOfStep => 0x04
  | .noSponsor => 0x05

/-- A ticket's byte in the STATUS body (12.4). -/
def ticketByte (t : Option Ticket) : Byte :=
  match t with
  | none => 0x00
  | some t => match t.state with
      | .queued => 0x01
      | .sending => 0x02
      | .waiting => 0x03
      | .done => 0x04

/-- A cell status in a READ_CELLS result (12.4). -/
def cellStatusByte (c : CellStatus) : Byte :=
  match c with
  | .absent => 0x00
  | .present => 0x01
  | .damaged => 0x02
  | .stale => 0x03

end Sys2Proof.Machine
end

