-- ==== Sys2Proof/Machine/Operands.lean ====
section
/-! DEFINITION. The operand forms of the host's requests: the framing of a REQUEST transaction (R179) and the arguments
each request decodes at its check point (R196). -/

namespace Sys2Proof.Machine

/-- The fixed argument length of a request code, none for SIGNAL and for codes assigned to no request (R179, R196). -/
def fixedLength (code : Byte) : Option Nat :=
  if code = 0x01 ∨ code = 0x05 ∨ code = 0x06 ∨ code = 0x0A ∨ code = 0x10 ∨ code = 0x11 ∨ code = 0x15 then some 0
  else if code = 0x04 ∨ code = 0x09 ∨ code = 0x12 ∨ code = 0x13 ∨ code = 0x14 then some 1
  else if code = 0x02 ∨ code = 0x03 ∨ code = 0x07 then some 2
  else if code = 0x08 then some 33
  else none

/-- The codes assigned to a request (12.4, R196). -/
def assignedCode (code : Byte) : Bool :=
  (decide (0x01#8 ≤ code) && decide (code ≤ 0x0A#8)) || (decide (0x10#8 ≤ code) && decide (code ≤ 0x16#8))

/-- The framing judgement of a REQUEST transaction's bytes: the request taken, or none where it fails (R179). -/
def frameRequest (sdi : List Byte) : Option Request :=
  match sdi with
  | code :: len :: args =>
      if 0x01#8 ≤ code ∧ code ≤ 0x1F#8 ∧ len.toNat ≤ 33 ∧ args.length = len.toNat
          ∧ (fixedLength code).all (· == len.toNat) then
        some { code := code, args := args }
      else none
  | _ => none

/-- A region argument: one byte, 00h to 0Fh (R196). -/
def regionArg (args : List Byte) : Option Region :=
  match args with
  | [b] => if h : b.toNat < 16 then some ⟨b.toNat, h⟩ else none
  | _ => none

/-- The cells of a READ_CELLS: first cell and count 1 to 16, all in one region (R17). -/
def cellsArg (args : List Byte) : Option (List CellIx) :=
  match args with
  | [f, n] =>
      if 1 ≤ n.toNat ∧ n.toNat ≤ 16 ∧ f.toNat / 16 = (f.toNat + n.toNat - 1) / 16 then
        some ((List.range n.toNat).map fun i => Fin.ofNat 256 (f.toNat + i))
      else none
  | _ => none

/-- A cell argument and the 32 data bytes after it (R58). -/
def stageArg (args : List Byte) : Option (CellIx × CellData) :=
  match args with
  | c :: rest => if h : rest.length = 32 then some (⟨c.toNat, c.isLt⟩, ⟨rest.toArray, by simpa using h⟩) else none
  | [] => none

/-- A cell argument (R59). -/
def cellArg (args : List Byte) : Option CellIx :=
  match args with
  | [c] => some ⟨c.toNat, c.isLt⟩
  | _ => none

/-- CONFIGURE's arguments: repeat limit 1 to 7, auto-rejoin 0 or 1 (R188). -/
def configureArg (args : List Byte) : Option (Nat × Bool) :=
  match args with
  | [n, a] =>
      if 1 ≤ n.toNat ∧ n.toNat ≤ 7 ∧ (a = 0x00 ∨ a = 0x01) then some (n.toNat, a == 0x01) else none
  | _ => none

/-- SET_WATCH's flags: regions 0 to 7 in the first byte, 8 to 15 in the second, lowest region lowest bit (R135). -/
def watchArg (args : List Byte) : Option Flags16 :=
  match args with
  | [a, b] => some (b ++ a)
  | _ => none

/-- SIGNAL's arguments at station n: target 0 to 15 other than n, or FFh for all, and 1 to 8 bytes (R130). -/
def signalArg (n : Station) (args : List Byte) : Option (Option Station × List Byte) :=
  match args with
  | t :: bytes =>
      if 1 ≤ bytes.length ∧ bytes.length ≤ 8 then
        if t = 0xFF then some (none, bytes)
        else if h : t.toNat < 16 then
          if (⟨t.toNat, h⟩ : Station) = n then none else some (some ⟨t.toNat, h⟩, bytes)
        else none
      else none
  | [] => none

end Sys2Proof.Machine
end

