-- ==== Sys2Proof/Machine/HostPort.lean ====
section
/-! DEFINITION. The Host Port's transactions (R175 to R181): POLL, FETCH, REQUEST_TRANSACTION, and the meanings of
these three commands. A transaction is one step (log 9); what SDO carried stands in `port.sdo` (log 11). -/

namespace Sys2Proof.Machine

/-- What SDO carried in the last transaction. -/
def setSdo (bytes : List Byte) (s : State) : State := s.withPort { s.port with sdo := bytes }

/-- The port state replaced. -/
def setPhase (p : PortPhase) (s : State) : State := s.withPort { s.port with phase := p }

/-- A response as the bytes a FETCH shifts out: result code, body length most significant byte first, body (12.4,
R196). -/
def responseBytes (r : Response) : List Byte :=
  resultByte r.code :: wordBytes (BitVec.ofNat 16 r.body.length) ++ r.body

/-- The reply of a FETCH by the port state (R180). -/
def fetchReply (p : PortPhase) : List Byte :=
  match p with
  | .idle => responseBytes { code := .none, body := [] }
  | .working _ => responseBytes { code := .pending, body := [] }
  | .holding r => responseBytes r

/-- The first n bytes of a reply, 00h beyond its end (R180, R196). -/
def shiftedOut (n : Nat) (reply : List Byte) : List Byte := (reply ++ List.replicate n 0).take n

/-- A poll: the status byte, then 00h (R177). -/
def pollPort (extra : Nat) (s : State) : State := setSdo (statusByte s :: List.replicate extra 0) s

/-- A FETCH: the status byte, then the reply; when a response was held and every byte of it was shifted out the port
returns to IDLE (R180, R178). -/
def fetchPort (extra : Nat) (s : State) : State :=
  let reply := fetchReply s.port.phase
  let s' := setSdo (statusByte s :: shiftedOut extra reply) s
  match s.port.phase with
  | .holding _ => if reply.length ≤ extra then setPhase .idle s' else s'
  | .idle | .working _ => s'

/-- A REQUEST transaction's end (R178, R179): IDLE and well framed, the request is taken; IDLE and badly framed,
FRAMING is held and REFUSED_LAST set; otherwise it is refused as busy. -/
def takeRequest (sdi : List Byte) (s : State) : State :=
  match s.port.phase with
  | .idle =>
      match frameRequest sdi with
      | some rq => s.withPort { s.port with phase := .working rq, refusedLast := false }
      | none => s.withPort { s.port with phase := .holding { code := .framing, body := [] }, refusedLast := true }
  | .working _ | .holding _ => s.withPort { s.port with refusedLast := true }

/-- A transaction by the bytes received on SDI: the first selects its kind; without a whole first byte it has no
effect (R177). -/
def requestPort (sdi : List Byte) (s : State) : State :=
  match sdi with
  | [] => setSdo [] s
  | b :: rest =>
      if b = 0x00 then pollPort rest.length s
      else if b = 0x80 then fetchPort rest.length s
      else takeRequest sdi (setSdo (statusByte s :: List.replicate rest.length 0) s)

/-- POLL (R177). -/
def execPoll (extra : Nat) (s : State) : Host.Outcome State Fault Refusal := running (pollPort extra) s

/-- FETCH (R180). -/
def execFetch (extra : Nat) (s : State) : Host.Outcome State Fault Refusal := running (fetchPort extra) s

/-- REQUEST_TRANSACTION (R179). -/
def execRequestTransaction (sdi : List Byte) (s : State) : Host.Outcome State Fault Refusal :=
  running (requestPort sdi) s

end Sys2Proof.Machine
end

