-- ==== Sys2Proof/Machine/Requests.lean ====
section
/-! DEFINITION. The check points of the host's requests (R181) and the meanings of their commands. A command is the
check point of the request in hand; with another request, or none, in hand its event cannot occur (log 3, log 10). When
no such command comes, the check point comes before the next event all the same (Machine/CheckPoint.lean, log 32). -/

namespace Sys2Proof.Machine

/-- The response is held (R178, R181). -/
def respond (code : ResultCode) (body : List Byte) (s : State) : State :=
  setPhase (.holding { code := code, body := body }) s

/-- A refusal: only the held response changes (R181, R190). -/
def refuse (code : ResultCode) (s : State) : State := respond code [] s

/-- The check point of the request of a code, carried out on its arguments when it is the request in hand (R181). -/
def checkPoint (code : Byte) (f : List Byte → State → State) (s : State) : State :=
  match s.port.phase with
  | .working rq => if rq.code = code then f rq.args s else s
  | .idle | .holding _ => s

/-- A ticket number as a response body. -/
def ticketBody (k : TicketNo) : List Byte := [BitVec.ofNat 8 k.val]

/-- A send-list entry appended at the tail (R162). -/
def enqueue (e : SendEntry) (s : State) : State := s.withTx { s.tx with sendList := s.tx.sendList ++ [e] }

/-- The acceptance of a deferred request under ticket k: ticket issued, entry appended, ACCEPTED (R44, R182). -/
def accept (k : TicketNo) (kind : RequestKind) (arg : TicketArg) (link : Option TicketNo) (f : SendFrame)
    (s : State) : State :=
  respond .accepted (ticketBody k) (enqueue { ticket := some k, frame := f } (issue k kind arg link s))

/-- The last check of a deferred request: a ticket can be issued (R182). -/
def withTicket (f : TicketNo → State → State) (s : State) : State :=
  match issuable s.port with
  | some k => f k s
  | none => refuse .noTicket s

/-! ### Immediate requests -/

/-- The STATUS body (R189, 12.4). -/
def statusBody (s : State) : List Byte :=
  let members := flagsOf (isMember s.mship.table)
  let doubt : List Byte := match s.apply.doubt with
    | .clear => [0x00, 0xFF, 0x00]
    | .unknown => [0x01, 0xFF, 0x00]
    | .known x q => [0x02, stationByte x, q]
  [stationByte s.straps.number, BitVec.ofNat 8 s.straps.rate.val, (stationStateCode s.mship.state).setWidth 8,
   BitVec.ofNat 8 (s.mship.repeatLimit.getD 0),
   (match s.mship.autoRejoin with
    | none => 0xFF
    | some true => 0x01
    | some false => 0x00),
   members.extractLsb' 0 8, members.extractLsb' 8 8]
  ++ s.port.tickets.toList.map ticketByte
  ++ [BitVec.ofNat 8 s.port.notices.length, BitVec.ofNat 8 (reserved s.port),
      BitVec.ofNat 8 s.bundle.draft.length, if s.bundle.outgoing.isSome then 0x01 else 0x00]
  ++ doubt ++ [if s.port.noticesDropped then 0x01 else 0x00]

/-- STATUS: the state read at one point, NOTICES_DROPPED cleared (R189, R186). -/
def doStatus (_args : List Byte) (s : State) : State :=
  respond .ok (statusBody s) (s.withPort { s.port with noticesDropped := false })

/-- CONFIGURE (R188, R77). Its checks go in the order of R188's table and R190: an argument out of range is BAD_ARG in any
state, past UNCONFIGURED too (log 30). -/
def doConfigure (args : List Byte) (s : State) : State :=
  match configureArg args with
  | none => refuse .badArg s
  | some (limit, rejoin) =>
      if s.mship.state = .unconfigured then
        respond .ok [] (s.withMship { s.mship with
          state := .outside, repeatLimit := some limit, autoRejoin := some rejoin, listen := some Config.listenPeriod })
      else refuse .wrongState s

/-- The per-cell result of READ_CELLS as the read point left the cell (R17, 12.4). -/
def cellResult (s : State) (c : CellIx) : List Byte :=
  let r := s.cells[c]
  match r.status with
  | .present | .stale => cellStatusByte r.status :: versionBytes r.version ++ (cellData s.mem c).toList
  | .absent | .damaged => cellStatusByte r.status :: versionBytes 0

/-- READ_CELLS: the cells verified and read at one point, failures handed to the Mend Unit in index order, then a mend
begun (R17, R16, R7, R8, R118). -/
def doReadCells (args : List Byte) (s : State) : State :=
  match cellsArg args with
  | none => refuse .badArg s
  | some cs =>
      let s := cs.foldl (fun s c => verifyForHost c s) s
      respond .ok (cs.flatMap (cellResult s)) (beginMend s)

/-- The draft with c's content staged: replaced in its place, or appended (R58). -/
def stageInto (c : CellIx) (d : CellData) (draft : List DraftEntry) : List DraftEntry :=
  if draft.any (·.cell == c) then draft.map fun e => if e.cell = c then { e with data := d } else e
  else draft ++ [{ cell := c, data := d }]

/-- The draft replaced, with OK and its count as the response (R58, R59). -/
def answerDraft (draft : List DraftEntry) (s : State) : State :=
  respond .ok [BitVec.ofNat 8 draft.length] (s.withBundle { s.bundle with draft := draft })

/-- STAGE_CELL (R58). -/
def doStageCell (args : List Byte) (s : State) : State :=
  match stageArg args with
  | none => refuse .badArg s
  | some (c, d) =>
      if s.mship.state ≠ .member then refuse .wrongState s
      else if !holdsRegion (regionOf c) s then refuse .notHolder s
      else if !(s.bundle.draft.any (·.cell == c) || decide (s.bundle.draft.length < Config.draftCapacity)) then
        refuse .draftFull s
      else answerDraft (stageInto c d s.bundle.draft) s

/-- UNSTAGE_CELL (R59). -/
def doUnstageCell (args : List Byte) (s : State) : State :=
  match cellArg args with
  | none => refuse .badArg s
  | some c =>
      if s.bundle.draft.any (·.cell == c) then answerDraft (s.bundle.draft.filter (·.cell != c)) s
      else refuse .none s

/-- DISCARD_DRAFT (R59). -/
def doDiscardDraft (_args : List Byte) (s : State) : State :=
  respond .ok [] (s.withBundle { s.bundle with draft := [] })

/-- A notice record (12.4). -/
def noticeBytes (n : Notice) : List Byte :=
  match n with
  | .completion k kind o => [0x01, BitVec.ofNat 8 k.val, requestKindByte kind, completionByte o]
  | .changed r w rep => [0x02, BitVec.ofNat 8 r.val, stationByte w, if rep then 0x01 else 0x00]
  | .signalIn x bytes => 0x03 :: stationByte x :: BitVec.ofNat 8 bytes.length :: bytes
  | .memberIn x => [0x04, stationByte x]
  | .memberOut x r => [0x05, stationByte x, outReasonByte r]
  | .leftGroup r => [0x06, departReasonByte r]
  | .cellLost c => [0x07, BitVec.ofNat 8 c.val]
  | .foreign x => [0x08, stationByte x]
  | .lineFault => [0x09]

/-- The oldest notice removed; the ticket of a COMPLETION is freed (R185, R183). -/
def dropOldest (n : Notice) (p : HostPort) : HostPort :=
  let p := { p with notices := p.notices.tail }
  match n with
  | .completion k _ _ => freeUp k p
  | _ => p

/-- TAKE_NOTICE (R185). -/
def doTakeNotice (_args : List Byte) (s : State) : State :=
  match s.port.notices with
  | [] => refuse .empty s
  | n :: _ => respond .ok (noticeBytes n) (s.withPort (dropOldest n s.port))

/-- SET_WATCH (R135). -/
def doSetWatch (args : List Byte) (s : State) : State :=
  match watchArg args with
  | none => refuse .badArg s
  | some w => respond .ok [w.extractLsb' 0 8, w.extractLsb' 8 8] (s.withPort { s.port with watch := w })

/-- READ_REGION (R54). -/
def doReadRegion (args : List Byte) (s : State) : State :=
  match regionArg args with
  | none => refuse .badArg s
  | some r => respond .ok (regionEntryBytes s.locks[r]) s

/-- READ_MEMBERS (R97, 12.4). -/
def doReadMembers (_args : List Byte) (s : State) : State :=
  respond .ok ((stationStateCode s.mship.state).setWidth 8 :: s.mship.table.toList.flatMap memberEntryBytes) s

/-! ### Deferred requests -/

/-- JOIN (R79). -/
def doJoin (_args : List Byte) (s : State) : State :=
  if s.mship.state ≠ .outside then refuse .wrongState s
  else withTicket (fun k s => accept k .join .none none .join (setStation .joinSent s)) s

/-- The outgoing bundle at the acceptance of a LEAVE, its COMMIT ticket SENDING: LOST, buffer emptied, and a fragment
that no station heard and that is not being driven at this moment abandoned (R73, log 17). A QUEUED COMMIT is cancelled
with the other entries. -/
def leaveBundle (s : State) : State :=
  match s.bundle.outgoing with
  | some b =>
      if !bundleBegun b s then s
      else
        let s := completeCommit .lost s
        if s.bus.state = .sending then s else abandonUnheardFragment s
  | none => s

/-- The acceptance of a LEAVE (R86, R73, R52): the draft emptied, the bundle dealt with, every QUEUED ticket CANCELLED
in acceptance order with its entry, the LEAVE ticket issued on the emptied list, LEAVING, silence and presence timers
stopped (R91, R92). -/
def acceptLeave (k : TicketNo) (s : State) : State :=
  let s := leaveBundle s
  let s := completeAll (ticketsIn s.port (· == .queued)) .cancelled s
  let s := (s.withBundle { draft := [], outgoing := none }).withTx { s.tx with sendList := [] }
  let s := stopSilence (s.withMship { s.mship with state := .leaving, presence := none })
  accept k .leave .none none .leave s

/-- LEAVE (R86). -/
def doLeave (_args : List Byte) (s : State) : State :=
  if s.mship.state ≠ .member then refuse .wrongState s else withTicket acceptLeave s

/-- CLAIM (R45). -/
def doClaim (args : List Byte) (s : State) : State :=
  match regionArg args with
  | none => refuse .badArg s
  | some r =>
      if s.mship.state ≠ .member then refuse .wrongState s
      else if holdsRegion r s || s.locks[r].waiters.contains (self s) || (liveFor s.port .claim r).isSome then
        refuse .already s
      else withTicket (fun k => accept k .claim (.region r) none (.claim r)) s

/-- RELEASE (R46). -/
def doRelease (args : List Byte) (s : State) : State :=
  match regionArg args with
  | none => refuse .badArg s
  | some r =>
      if s.mship.state ≠ .member then refuse .wrongState s
      else if !holdsRegion r s then refuse .notHolder s
      else if (liveFor s.port .release r).isSome || (liveFor s.port .withdraw r).isSome then refuse .already s
      else if s.bundle.draft.any (fun e => regionOf e.cell == r) then refuse .draftOpen s
      else withTicket (fun k => accept k .release (.region r) none (.yield r)) s

/-- The immediate withdrawal of a QUEUED claim: its entry leaves the send list, its ticket completes WITHDRAWN, and the
answer is OK (R49). -/
def withdrawNow (c : TicketNo) (s : State) : State :=
  respond .ok [] (complete c .withdrawn
    (s.withTx { s.tx with sendList := s.tx.sendList.filter (·.ticket != some c) }))

/-- WITHDRAW (R48, R49). -/
def doWithdraw (args : List Byte) (s : State) : State :=
  match regionArg args with
  | none => refuse .badArg s
  | some r =>
      if s.mship.state ≠ .member then refuse .wrongState s
      else match liveFor s.port .claim r with
        | none => refuse .notWaiting s
        | some c =>
            if (liveFor s.port .withdraw r).isSome then refuse .already s
            else if s.port.tickets[c].any (·.state == .queued) then withdrawNow c s
            else withTicket (fun k => accept k .withdraw (.region r) (some c) (.yield r)) s

/-- COMMIT (R60). -/
def doCommit (_args : List Byte) (s : State) : State :=
  if s.mship.state ≠ .member then refuse .wrongState s
  else if s.bundle.draft.isEmpty then refuse .empty s
  else if s.bundle.outgoing.isSome then refuse .bundlePending s
  else withTicket (fun k s =>
    accept k .commit .none none .commit
      (s.withBundle { draft := [], outgoing := some { entries := s.bundle.draft, ticket := k, next := 0 } })) s

/-- SIGNAL (R130). -/
def doSignal (args : List Byte) (s : State) : State :=
  match signalArg (self s) args with
  | none => refuse .badArg s
  | some (t, bytes) =>
      if s.mship.state ≠ .member then refuse .wrongState s
      else if !(t.all (isMember s.mship.table)) then refuse .noTarget s
      else withTicket (fun k => accept k .signal (.target t) none (.signal t bytes)) s

/-- The check point of a request whose code is assigned to none: BAD_REQUEST (R179). -/
def unassignedPoint (s : State) : State :=
  match s.port.phase with
  | .working rq => if assignedCode rq.code then s else refuse .badRequest s
  | .idle | .holding _ => s

/-! ### The meanings -/

/-- STATUS (R189). -/
def execStatus (s : State) : Host.Outcome State Fault Refusal := running (checkPoint 0x01 doStatus) s

/-- CONFIGURE (R188). -/
def execConfigure (s : State) : Host.Outcome State Fault Refusal := running (checkPoint 0x02 doConfigure) s

/-- READ_CELLS (R17). -/
def execReadCells (s : State) : Host.Outcome State Fault Refusal := running (checkPoint 0x03 doReadCells) s

/-- STAGE_CELL (R58). -/
def execStageCell (s : State) : Host.Outcome State Fault Refusal := running (checkPoint 0x08 doStageCell) s

/-- UNSTAGE_CELL (R59). -/
def execUnstageCell (s : State) : Host.Outcome State Fault Refusal := running (checkPoint 0x09 doUnstageCell) s

/-- DISCARD_DRAFT (R59). -/
def execDiscardDraft (s : State) : Host.Outcome State Fault Refusal := running (checkPoint 0x0A doDiscardDraft) s

/-- TAKE_NOTICE (R185). -/
def execTakeNotice (s : State) : Host.Outcome State Fault Refusal := running (checkPoint 0x06 doTakeNotice) s

/-- SET_WATCH (R135). -/
def execSetWatch (s : State) : Host.Outcome State Fault Refusal := running (checkPoint 0x07 doSetWatch) s

/-- READ_REGION (R54). -/
def execReadRegion (s : State) : Host.Outcome State Fault Refusal := running (checkPoint 0x04 doReadRegion) s

/-- READ_MEMBERS (R97). -/
def execReadMembers (s : State) : Host.Outcome State Fault Refusal := running (checkPoint 0x05 doReadMembers) s

/-- JOIN (R79). -/
def execJoin (s : State) : Host.Outcome State Fault Refusal := running (checkPoint 0x10 doJoin) s

/-- LEAVE (R86). -/
def execLeave (s : State) : Host.Outcome State Fault Refusal := running (checkPoint 0x11 doLeave) s

/-- CLAIM (R45). -/
def execClaim (s : State) : Host.Outcome State Fault Refusal := running (checkPoint 0x12 doClaim) s

/-- RELEASE (R46). -/
def execRelease (s : State) : Host.Outcome State Fault Refusal := running (checkPoint 0x13 doRelease) s

/-- WITHDRAW (R48). -/
def execWithdraw (s : State) : Host.Outcome State Fault Refusal := running (checkPoint 0x14 doWithdraw) s

/-- COMMIT (R60). -/
def execCommit (s : State) : Host.Outcome State Fault Refusal := running (checkPoint 0x15 doCommit) s

/-- SIGNAL (R130). -/
def execSignal (s : State) : Host.Outcome State Fault Refusal := running (checkPoint 0x16 doSignal) s

/-- UNASSIGNED_REQUEST (R179). -/
def execUnassignedRequest (s : State) : Host.Outcome State Fault Refusal := running unassignedPoint s

end Sys2Proof.Machine
end

