-- ==== Sys2Proof/Machine/CheckPoint.lean ====
section
/-! DEFINITION. When the check point of a taken request comes: at the first point between two applications after the
taking, and so before any other event of the station (R181, log 32). -/

namespace Sys2Proof.Machine

/-- What a request does at its check point, by its code (R181, 12.4): the same body that the request's own command
carries out. -/
def requestPoint (rq : Request) : State → State :=
  if rq.code = 0x01 then doStatus rq.args
  else if rq.code = 0x02 then doConfigure rq.args
  else if rq.code = 0x03 then doReadCells rq.args
  else if rq.code = 0x04 then doReadRegion rq.args
  else if rq.code = 0x05 then doReadMembers rq.args
  else if rq.code = 0x06 then doTakeNotice rq.args
  else if rq.code = 0x07 then doSetWatch rq.args
  else if rq.code = 0x08 then doStageCell rq.args
  else if rq.code = 0x09 then doUnstageCell rq.args
  else if rq.code = 0x0A then doDiscardDraft rq.args
  else if rq.code = 0x10 then doJoin rq.args
  else if rq.code = 0x11 then doLeave rq.args
  else if rq.code = 0x12 then doClaim rq.args
  else if rq.code = 0x13 then doRelease rq.args
  else if rq.code = 0x14 then doWithdraw rq.args
  else if rq.code = 0x15 then doCommit rq.args
  else if rq.code = 0x16 then doSignal rq.args
  else refuse .badRequest

/-- The request in hand, if one is, carried out at its check point: the port is HOLDING after it (R178, R181). -/
def carryOut (s : State) : State :=
  match s.port.phase with
  | .working rq => requestPoint rq s
  | .idle | .holding _ => s

/-- An event of the bus, a timer or the storage: the check point of a request in hand comes before it, and nothing
passes between the taking and the check point but port transactions (R181, log 32). -/
def atEvent (f : State → State) (s : State) : Host.Outcome State Fault Refusal := running (fun s => f (carryOut s)) s

end Sys2Proof.Machine
end

