-- ==== Sys2Proof/Machine/Timers.lean ====
section
/-! DEFINITION. The expiries of the timers (R77, R91, R92, R124, R161), the passing of slots, the first moment at which a
frame may start (R159), and what one slot of bus time does when no command waits (log 4). -/

namespace Sys2Proof.Machine

/-- Expiry of the listen timer: the listening condition is met (R77). -/
def expireListen (s : State) : State :=
  match s.mship.listen with
  | some _ => s.withMship { s.mship with listening := true, listen := none }
  | none => s

/-- Expiry of peer x's silence timer: DROP(x, SILENT) is queued unless a DROP naming x is, and the timer restarts
(R91, R163). -/
def expireSilence (x : Station) (s : State) : State :=
  match s.mship.silence[x] with
  | some _ =>
      let s := setSilence x (some Config.silenceLimit) s
      if s.tx.drops.any (·.target == x) then s
      else s.withTx { s.tx with drops := s.tx.drops ++ [{ target := x, reason := .silent, cls := .turn }] }
  | none => s

/-- Expiry of the presence timer: a PRESENCE is queued unless one is, and the timer restarts (R92, R163). -/
def expirePresence (s : State) : State :=
  match s.mship.presence with
  | some _ => startPresence (s.withTx { s.tx with presence := true })
  | none => s

/-- Expiry of the mend window: a new attempt, or at a LEAVING station the end of the current mend (R124, R128). -/
def expireMendWindow (s : State) : State :=
  match s.mend.current with
  | some m => if m.window.isSome then attemptMend s else s
  | none => s

/-- Expiry of the line-fault hold-off: the collision count returns to 0 and the timer stops (R161). -/
def expireHoldOff (s : State) : State :=
  match s.access.holdOff with
  | some _ => s.withAccess { s.access with collisions := 0, holdOff := none }
  | none => s

/-- k slots pass: the running timers count down, and the gap count counts up while the bus is IDLE (R158). -/
def passSlots (k : Nat) (s : State) : State :=
  { s with
    mship := { s.mship with
      silence := s.mship.silence.map (timerRun k)
      presence := timerRun k s.mship.presence
      listen := timerRun k s.mship.listen }
    mend := { s.mend with
      current := s.mend.current.map fun m => { m with window := timerRun k m.window } }
    access := { s.access with
      gapCount := if s.bus.state = .idle then s.access.gapCount + k else s.access.gapCount
      holdOff := timerRun k s.access.holdOff } }

/-- A timer that has run out. -/
def ranOut (t : Option Nat) : Bool := t == some 0

/-- The expiries due in one slot, in a fixed order (log 4). -/
def dueExpiries (s : State) : State :=
  let s := if ranOut s.mship.listen then expireListen s else s
  let s := if ranOut s.access.holdOff then expireHoldOff s else s
  let s := stations.foldl (fun s x => if ranOut s.mship.silence[x] then expireSilence x s else s) s
  let s := if ranOut s.mship.presence then expirePresence s else s
  if s.mend.current.any (fun m => ranOut m.window) then expireMendWindow s else s

/-- One slot passes: the timers run, and those that run out expire (log 4). -/
def slotPasses (s : State) : State := dueExpiries (passSlots 1 s)

/-- The transmission start at this moment, where a frame may start now (R159). -/
def startNow (s : State) : Option State := if (startable s).isSome then some (startTransmission s) else none

/-- The transmission start at the first moment at which a frame may start, if one comes before more than k slots have
passed; at every slot the timers that run out expire before the offer is made (R158, R159, log 4). -/
def startWithin (k : Nat) (s : State) : Option State :=
  match k with
  | 0 => startNow s
  | k + 1 => (startNow s).orElse fun _ => startWithin k (slotPasses s)

/-- One slot of bus time with no command waiting: a request in hand is carried out first; a frame that may start now starts,
and else a slot passes, after which a frame may start (R159, R181, log 4, log 32). -/
def tick (s : State) : State :=
  if s.straps.inReset then s
  else
    let s := carryOut s
    (startWithin 1 s).getD (slotPasses s)

end Sys2Proof.Machine
end

