-- ==== Sys2Proof/Machine/BusEvents.lean ====
section
/-! DEFINITION. The meanings of the bus events that no frame carries: carrier begin, transmission start, collision and
ack window end. -/

namespace Sys2Proof.Machine

/-- CARRIER_BEGIN (R144). -/
def execCarrierBegin (halfBits : Nat) (idleSlot : Bool) (s : State) : Host.Outcome State Fault Refusal :=
  atEvent (beginCarrier halfBits idleSlot) s

/-- The transmission start at the first moment within `slots` slots at which a frame may start (R158, R159); with no such
moment the event does not occur, and nothing changes (log 3, log 6). -/
def startAfter (slots : Nat) (s : State) : State := (startWithin slots s).getD s

/-- TRANSMISSION_START (R159). -/
def execTransmissionStart (slots : Nat) (s : State) : Host.Outcome State Fault Refusal := atEvent (startAfter slots) s

/-- COLLISION (R149, R160). -/
def execCollision (startMark : Bool) (heard : Heard) (s : State) : Host.Outcome State Fault Refusal :=
  atEvent (collide startMark heard) s

/-- ACK_WINDOW_END (R151). -/
def execAckWindowEnd (map : Flags16) (s : State) : Host.Outcome State Fault Refusal := atEvent (endAckWindow map) s

end Sys2Proof.Machine
end

