-- ==== Sys2Proof/Machine/Frames.lean ====
section
/-! DEFINITION. The meanings of the frame commands: each is the carrier end of its frame, heard or driven by this
station (log 7). -/

namespace Sys2Proof.Machine

/-- PRESENCE_FRAME (R92, R24 step 6: no effect of its own). -/
def execPresenceFrame (head : FrameHead) (s : State) : Host.Outcome State Fault Refusal :=
  atEvent (carrierEnd { head := head, body := .presence }) s

/-- JOIN_FRAME (R81, R83, R26). -/
def execJoinFrame (head : FrameHead) (rejoin : Bool) (s : State) : Host.Outcome State Fault Refusal :=
  atEvent (carrierEnd { head := head, body := .join rejoin }) s

/-- LEAVE_FRAME (R87, R88). -/
def execLeaveFrame (head : FrameHead) (s : State) : Host.Outcome State Fault Refusal :=
  atEvent (carrierEnd { head := head, body := .leave }) s

/-- DROP_FRAME (R89, R90). -/
def execDropFrame (head : FrameHead) (target : Station) (reason : DropReason)
    (s : State) : Host.Outcome State Fault Refusal :=
  atEvent (carrierEnd { head := head, body := .drop target reason }) s

/-- CLAIM_FRAME (R38, R39). -/
def execClaimFrame (head : FrameHead) (region : Region) (s : State) : Host.Outcome State Fault Refusal :=
  atEvent (carrierEnd { head := head, body := .claim region }) s

/-- YIELD_FRAME (R40, R41). -/
def execYieldFrame (head : FrameHead) (region : Region) (s : State) : Host.Outcome State Fault Refusal :=
  atEvent (carrierEnd { head := head, body := .yield region }) s

/-- WRITE_FRAME (R65 to R70). -/
def execWriteFrame (head : FrameHead) (w : WriteBody) (s : State) : Host.Outcome State Fault Refusal :=
  atEvent (carrierEnd { head := head, body := .write w }) s

/-- SNAPSTATE_FRAME (R107 to R109). -/
def execSnapStateFrame (head : FrameHead) (target : Station) (images : Images)
    (s : State) : Host.Outcome State Fault Refusal :=
  atEvent (carrierEnd { head := head, body := .snapState target images }) s

/-- SNAPCELLS_FRAME (R105, R111, R112). -/
def execSnapCellsFrame (head : FrameHead) (target : Station) (group : Group) (records : Vector SnapRecord 8)
    (s : State) : Host.Outcome State Fault Refusal :=
  atEvent (carrierEnd { head := head, body := .snapCells target group records }) s

/-- MEND_FRAME (R121). -/
def execMendFrame (head : FrameHead) (target : Station) (cell : CellIx) (s : State) : Host.Outcome State Fault Refusal :=
  atEvent (carrierEnd { head := head, body := .mend target cell }) s

/-- MENDREPLY_FRAME (R123). -/
def execMendReplyFrame (head : FrameHead) (target : Station) (cell : CellIx) (answer : MendAnswer)
    (s : State) : Host.Outcome State Fault Refusal :=
  atEvent (carrierEnd { head := head, body := .mendReply target cell answer }) s

/-- SIGNAL_FRAME (R132). -/
def execSignalFrame (head : FrameHead) (target : Option Station) (bytes : List Byte)
    (s : State) : Host.Outcome State Fault Refusal :=
  atEvent (carrierEnd { head := head, body := .signal target bytes }) s

/-- DAMAGED_FRAME: the carrier end of what was heard byte by byte (R28, R146, log 8). -/
def execDamagedFrame (heard : Heard) (s : State) : Host.Outcome State Fault Refusal := atEvent (heardBytesEnd heard) s

end Sys2Proof.Machine
end

