-- ==== Sys2Proof/Machine/System.lean ====
section
/-! DEFINITION. Reset, its release, and a storage upset. -/

namespace Sys2Proof.Machine

/-- The state of a station in reset or just released: every block at its reset values, the waiting commands kept. -/
def resetWith (straps : Straps) (s : State) : State := (State.reset.withPending s.pending).withStraps straps

/-- RESET: reset is applied, and every block stands at its reset values (R18, R35, R55, R75, R98, R116, R129, R154,
R174, R192, log 2). -/
def execReset (s : State) : Host.Outcome State Fault Refusal :=
  .next (resetWith { s.straps with inReset := true } s)

/-- RESET_RELEASE: the straps are read, and the blocks start from their reset values (R154, R188, R192, log 2). -/
def execResetRelease (number : Station) (rate : Fin 4) (s : State) : Host.Outcome State Fault Refusal :=
  .next (resetWith { number := number, rate := rate, inReset := false } s)

/-- A storage upset of cell c: the disturbance leaves the content given, and the check of the cell does not verify until
the Store next writes the cell; status and mark stand (R6, log 15). -/
def upsetCell (c : CellIx) (v : Version) (d : CellData) (check : BitVec 16) (s : State) : State :=
  setCell c { s.cells[c] with version := v, check := check, upset := true } (s.withMem (writeCellData s.mem c d))

/-- STORAGE_UPSET (R6). -/
def execStorageUpset (cell : CellIx) (version : Version) (data : CellData) (check : BitVec 16) (s : State) :
    Host.Outcome State Fault Refusal :=
  atEvent (upsetCell cell version data check) s

end Sys2Proof.Machine
end

