-- ==== Sys2Proof/Machine/TimerEvents.lean ====
section
/-! DEFINITION. The meanings of the timer expiries. A stopped timer does not expire (log 3); a running one may at any
command, the rest of its interval having passed (log 5). -/

namespace Sys2Proof.Machine

/-- LISTEN_TIMER_EXPIRY (R77). -/
def execListenTimerExpiry (s : State) : Host.Outcome State Fault Refusal := atEvent expireListen s

/-- SILENCE_TIMER_EXPIRY of one peer (R91). -/
def execSilenceTimerExpiry (peer : Station) (s : State) : Host.Outcome State Fault Refusal :=
  atEvent (expireSilence peer) s

/-- PRESENCE_TIMER_EXPIRY (R92). -/
def execPresenceTimerExpiry (s : State) : Host.Outcome State Fault Refusal := atEvent expirePresence s

/-- MEND_WINDOW_EXPIRY (R124). -/
def execMendWindowExpiry (s : State) : Host.Outcome State Fault Refusal := atEvent expireMendWindow s

/-- HOLD_OFF_EXPIRY (R161). -/
def execHoldOffExpiry (s : State) : Host.Outcome State Fault Refusal := atEvent expireHoldOff s

end Sys2Proof.Machine
end

