-- ==== Sys2Proof/Machine/Dispatch.lean ====
section
/-! DEFINITION. The dispatch: one arm per command, each one direct call of the command's meaning. -/

namespace Sys2Proof.Machine

def exec (i : Instr) (s : State) : Host.Outcome State Fault Refusal :=
  match i with
  | .reset => Sys2Proof.Machine.execReset s
  | .resetRelease number rate => Sys2Proof.Machine.execResetRelease number rate s
  | .poll extra => Sys2Proof.Machine.execPoll extra s
  | .fetch extra => Sys2Proof.Machine.execFetch extra s
  | .requestTransaction sdi => Sys2Proof.Machine.execRequestTransaction sdi s
  | .status => Sys2Proof.Machine.execStatus s
  | .configure => Sys2Proof.Machine.execConfigure s
  | .readCells => Sys2Proof.Machine.execReadCells s
  | .stageCell => Sys2Proof.Machine.execStageCell s
  | .unstageCell => Sys2Proof.Machine.execUnstageCell s
  | .discardDraft => Sys2Proof.Machine.execDiscardDraft s
  | .takeNotice => Sys2Proof.Machine.execTakeNotice s
  | .setWatch => Sys2Proof.Machine.execSetWatch s
  | .readRegion => Sys2Proof.Machine.execReadRegion s
  | .readMembers => Sys2Proof.Machine.execReadMembers s
  | .join => Sys2Proof.Machine.execJoin s
  | .leave => Sys2Proof.Machine.execLeave s
  | .claim => Sys2Proof.Machine.execClaim s
  | .release => Sys2Proof.Machine.execRelease s
  | .withdraw => Sys2Proof.Machine.execWithdraw s
  | .commit => Sys2Proof.Machine.execCommit s
  | .signal => Sys2Proof.Machine.execSignal s
  | .unassignedRequest => Sys2Proof.Machine.execUnassignedRequest s
  | .carrierBegin halfBits idleSlot => Sys2Proof.Machine.execCarrierBegin halfBits idleSlot s
  | .transmissionStart slots => Sys2Proof.Machine.execTransmissionStart slots s
  | .presenceFrame head => Sys2Proof.Machine.execPresenceFrame head s
  | .joinFrame head rejoin => Sys2Proof.Machine.execJoinFrame head rejoin s
  | .leaveFrame head => Sys2Proof.Machine.execLeaveFrame head s
  | .dropFrame head target reason => Sys2Proof.Machine.execDropFrame head target reason s
  | .claimFrame head region => Sys2Proof.Machine.execClaimFrame head region s
  | .yieldFrame head region => Sys2Proof.Machine.execYieldFrame head region s
  | .writeFrame head w => Sys2Proof.Machine.execWriteFrame head w s
  | .snapStateFrame head target images => Sys2Proof.Machine.execSnapStateFrame head target images s
  | .snapCellsFrame head target group records => Sys2Proof.Machine.execSnapCellsFrame head target group records s
  | .mendFrame head target cell => Sys2Proof.Machine.execMendFrame head target cell s
  | .mendReplyFrame head target cell answer => Sys2Proof.Machine.execMendReplyFrame head target cell answer s
  | .signalFrame head target bytes => Sys2Proof.Machine.execSignalFrame head target bytes s
  | .damagedFrame heard => Sys2Proof.Machine.execDamagedFrame heard s
  | .collision startMark heard => Sys2Proof.Machine.execCollision startMark heard s
  | .ackWindowEnd map => Sys2Proof.Machine.execAckWindowEnd map s
  | .listenTimerExpiry => Sys2Proof.Machine.execListenTimerExpiry s
  | .silenceTimerExpiry peer => Sys2Proof.Machine.execSilenceTimerExpiry peer s
  | .presenceTimerExpiry => Sys2Proof.Machine.execPresenceTimerExpiry s
  | .mendWindowExpiry => Sys2Proof.Machine.execMendWindowExpiry s
  | .holdOffExpiry => Sys2Proof.Machine.execHoldOffExpiry s
  | .storageUpset cell version data check => Sys2Proof.Machine.execStorageUpset cell version data check s

end Sys2Proof.Machine
end

