-- ==== Sys2Proof/Safety.lean ====
section
/-! DEFINITION. The terms the claims use: when a command meets a station (hypotheses on state and operands alone), what
every applied frame of a peer leaves behind, and the laws that every step keeps. -/

namespace Sys2Proof.Safety

open Sys2Proof.Machine

/-! ### When a command meets a station -/

/-- The station is out of reset (R154, R192). -/
def Running (s : State) : Prop := s.straps.inReset = false

/-- The station is out of reset, and no taken request waits for its check point (R181). -/
def NoneInHand (s : State) : Prop := Running s ∧ ∀ rq, s.port.phase ≠ .working rq

/-- A taken request of this code with these argument bytes is in hand (R178, R179). -/
def InHand (code : Byte) (args : List Byte) (s : State) : Prop :=
  Running s ∧ s.port.phase = .working { code := code, args := args }

/-- The state with a response held and nothing else changed (R178, R181). -/
def answered (code : ResultCode) (body : List Byte) (s : State) : State :=
  { s with port := { s.port with phase := .holding { code := code, body := body } } }

/-- The command that is the check point of a request of this code (12.4, R196). -/
def requestCommand (code : Byte) : Instr :=
  if code = 0x01 then .status
  else if code = 0x02 then .configure
  else if code = 0x03 then .readCells
  else if code = 0x04 then .readRegion
  else if code = 0x05 then .readMembers
  else if code = 0x06 then .takeNotice
  else if code = 0x07 then .setWatch
  else if code = 0x08 then .stageCell
  else if code = 0x09 then .unstageCell
  else if code = 0x0A then .discardDraft
  else if code = 0x10 then .join
  else if code = 0x11 then .leave
  else if code = 0x12 then .claim
  else if code = 0x13 then .release
  else if code = 0x14 then .withdraw
  else if code = 0x15 then .commit
  else if code = 0x16 then .signal
  else .unassignedRequest

/-- The commands that are events of the bus, a timer or the storage: neither reset nor anything at the host port. -/
def isEvent (c : Instr) : Bool :=
  match c with
  | .reset | .resetRelease _ _ | .poll _ | .fetch _ | .requestTransaction _ => false
  | .status | .configure | .readCells | .stageCell | .unstageCell | .discardDraft | .takeNotice => false
  | .setWatch | .readRegion | .readMembers | .join | .leave | .claim | .release | .withdraw => false
  | .commit | .signal | .unassignedRequest => false
  | .carrierBegin _ _ | .transmissionStart _ | .presenceFrame _ | .joinFrame _ _ | .leaveFrame _ => true
  | .dropFrame _ _ _ | .claimFrame _ _ | .yieldFrame _ _ | .writeFrame _ _ | .snapStateFrame _ _ _ => true
  | .snapCellsFrame _ _ _ _ | .mendFrame _ _ _ | .mendReplyFrame _ _ _ _ | .signalFrame _ _ _ => true
  | .damagedFrame _ | .collision _ _ | .ackWindowEnd _ | .listenTimerExpiry | .silenceTimerExpiry _ => true
  | .presenceTimerExpiry | .mendWindowExpiry | .holdOffExpiry | .storageUpset _ _ _ _ => true

/-- The command of a frame. -/
def frameCommand (f : Frame) : Instr :=
  match f.body with
  | .presence => .presenceFrame f.head
  | .join rejoin => .joinFrame f.head rejoin
  | .leave => .leaveFrame f.head
  | .drop t r => .dropFrame f.head t r
  | .claim r => .claimFrame f.head r
  | .yield r => .yieldFrame f.head r
  | .write w => .writeFrame f.head w
  | .snapState t im => .snapStateFrame f.head t im
  | .snapCells t g rs => .snapCellsFrame f.head t g rs
  | .mend t c => .mendFrame f.head t c
  | .mendReply t c a => .mendReplyFrame f.head t c a
  | .signal t bs => .signalFrame f.head t bs

/-- The receiver is at the carrier end of a carrier whose start mark it has seen: RECEIVING with the mark recorded, or
IDLE, the whole carrier falling into the command (log 7). -/
def AtCarrierEnd (s : State) : Prop :=
  s.bus.state = .idle ∨ (s.bus.state = .receiving ∧ s.bus.record.startMark = true)

/-- A frame that passes every receive check reaches the carrier end at this station, which did not drive it, with no
request in hand (R146). -/
def Hears (s : State) (f : Frame) : Prop := NoneInHand s ∧ frameOkAt s.straps.number f = true ∧ AtCarrierEnd s

/-- The frame is taken by its group's order at this table holder, doubt not standing in the way: its sender is another
station, JOINING or MEMBER here (R24 steps 1 and 2). -/
def FromTableSender (s : State) (f : Frame) : Prop :=
  isHolder s.mship.state = true ∧ f.head.sender ≠ s.straps.number ∧ s.mship.table[f.head.sender].state ≠ .absent
    ∧ ∀ x q, s.apply.doubt ≠ .known x q

/-- This station has no bundle of its own in the staging, so that no frame of a peer breaks one (R71). -/
def NoOwnStaging (s : State) : Prop := ∀ st, s.apply.staging = some st → st.sender ≠ s.straps.number

/-- All that a transmission start needs beside a frame whose gap has passed and whose kind the station state permits
(R159). -/
def MayStart (s : State) : Prop :=
  NoneInHand s ∧ s.bus.state = .idle ∧ s.access.holdOff = none ∧ s.mship.listening = true

/-- The frame follows the last one of its sender (R25). -/
def NextInSequence (s : State) (f : Frame) : Prop := f.head.seq = s.mship.table[f.head.sender].lastSeq + 1

/-- A good frame of a peer that this table holder applies. -/
def Applies (s : State) (f : Frame) : Prop :=
  Hears s f ∧ FromTableSender s f ∧ NextInSequence s f ∧ NoOwnStaging s

/-- The result bytes of one cell of a READ_CELLS, from its status after verification (R4, R17, 12.4). -/
def cellBytes (s : State) (c : CellIx) (after : CellStatus) : List Byte :=
  match after with
  | .present => 0x01 :: versionBytes s.cells[c].version ++ (cellData s.mem c).toList
  | .stale => 0x03 :: versionBytes s.cells[c].version ++ (cellData s.mem c).toList
  | .damaged => [0x02, 0x00, 0x00, 0x00, 0x00]
  | .absent => [0x00, 0x00, 0x00, 0x00, 0x00]

/-- The status of a cell after the verification of a host read (R7): a PRESENT or STALE cell whose check does not verify
becomes DAMAGED. -/
def statusAfterRead (s : State) (c : CellIx) : CellStatus :=
  if s.cells[c].status = .present ∨ s.cells[c].status = .stale then
    if s.cells[c].upset = true ∨ cellCheck s.cells[c].version (cellData s.mem c) ≠ s.cells[c].check then .damaged
    else s.cells[c].status
  else s.cells[c].status

/-! ### What a frame heard leaves behind, whatever its kind -/

/-- The Bus Interface after the carrier end of a frame heard whole (R143, R145, R150). -/
def busAfter (f : Frame) (acked : Bool) (b : BusInterface) : BusInterface :=
  { b with
    state := .ackWindow
    buffer := (frameBytes f).take 329
    record := { startMark := true, framed := (frameBytes f).length, unframed := false, header := .passes }
    ackDrive := acked
    report := .heard }

/-- The sender's silence timer restarts where it runs (R91). -/
def silenceAfter (x : Station) (t : Vector (Option Nat) 16) : Vector (Option Nat) 16 :=
  t.set x.val (t[x].map fun _ => 16384)

/-- What every frame of a peer that this table holder applies leaves behind beside the effect of its kind: the bus at
its ack window with the position to be driven, the reference sender, the listening condition met, the sender's sequence
recorded and silence timer restarted, a DROP for its silence withdrawn, doubt cleared, a staged bundle kept only from a
WRITE or DROP of its own sender (R20, R22, R24, R30, R66, R77, R91, R156). -/
def taken (f : Frame) (s : State) : State :=
  let x := f.head.sender
  { s with
    bus := busAfter f true s.bus
    access := { s.access with reference := some x }
    mship := { s.mship with
      table := s.mship.table.set x.val { s.mship.table[x] with lastSeq := f.head.seq }
      silence := silenceAfter x s.mship.silence
      listening := true
      listen := none }
    apply := { s.apply with
      doubt := .clear
      staging := s.apply.staging.filter fun st => st.sender == x && keepsStaging f.body }
    tx := { s.tx with
      drops := s.tx.drops.filter fun d => !(d.target == x && d.reason == .silent && d.cls == .turn) } }

/-- The Bus Interface after the carrier end of this station's own frame with a good echo (R145, R148, R23); its report
to the Transmit Selector stands in the model's own field (log 13). -/
def busAfterOwn (f : Frame) (b : BusInterface) : BusInterface := { busAfter f false b with report := .ownGood }

/-- The carrier end of the first good echo of this station's own frame, at a MEMBER or LEAVING station without known
doubt (R27, R148). -/
def OwnEcho (sl : Slot) (s : State) : Prop :=
  NoneInHand s ∧ s.bus.state = .sending ∧ s.tx.slot = some sl ∧ sl.heard = false
    ∧ (s.mship.state = .member ∨ s.mship.state = .leaving) ∧ sl.frame.head.sender = s.straps.number
    ∧ (∀ x q, s.apply.doubt ≠ .known x q) ∧ s.mship.table[s.straps.number].state ≠ .absent

/-- What the first good echo of this station's own frame leaves behind beside the effect of its kind: the bus at its ack
window with nothing driven, this station the reference sender, no collision counted, its own sequence recorded, doubt
cleared, a staged bundle kept only where it is its own and the frame a WRITE or DROP, the frame heard (R23, R27, R30, R66,
R77, R148, R156, R160, R164). -/
def ownTaken (sl : Slot) (s : State) : State :=
  let n := s.straps.number
  { s with
    bus := busAfterOwn sl.frame s.bus
    access := { s.access with reference := some n, collisions := 0 }
    mship := { s.mship with
      table := s.mship.table.set n.val { s.mship.table[n] with lastSeq := sl.frame.head.seq }
      listening := true
      listen := none }
    apply := { s.apply with
      doubt := .clear
      staging := s.apply.staging.filter fun st => st.sender == n && keepsStaging sl.frame.body }
    tx := { s.tx with slot := some { sl with heard := true, gap := .repeatGap } } }

/-- What a good frame leaves behind that is neither applied nor acked. -/
def passedBy (f : Frame) (s : State) : State :=
  { s with
    bus := busAfter f false s.bus
    access := { s.access with reference := some f.head.sender }
    mship := { s.mship with listening := true, listen := none } }

/-- Carrier ends at a receiver whose start mark was seen or not: RECEIVING with the mark as recorded, or IDLE, the whole
carrier with its mark falling into the command (log 7). -/
def CarrierOver (mark : Bool) (s : State) : Prop :=
  (s.bus.state = .idle ∧ mark = true) ∨ (s.bus.state = .receiving ∧ s.bus.record.startMark = mark)

/-- What every ack window end leaves, whatever the window followed: IDLE with the map recorded and the gap count at 0; the
presence timer restarted where this station drove its position; the silence timer of every peer whose position is driven
restarted where it runs, and the DROP that waited for its silence withdrawn (R91, R92, R150, R151, R158). -/
def windowEnded (map : Flags16) (s : State) : State :=
  { s with
    bus := { s.bus with state := .idle, ackMap := map, ackDrive := false, report := .heard }
    access := { s.access with gapCount := 0 }
    mship := { s.mship with
      presence := if s.bus.ackDrive = true then s.mship.presence.map (fun _ => 4096) else s.mship.presence
      silence := Vector.ofFn fun x : Fin 16 =>
        if flag map x = true ∧ x ≠ s.straps.number then s.mship.silence[x].map (fun _ => 16384)
        else s.mship.silence[x] }
    tx := { s.tx with
      drops := s.tx.drops.filter fun d => !(flag map d.target && d.target != s.straps.number
        && d.reason == .silent && d.cls == .turn) } }

/-! ### Mends -/

/-- How many positions after this station's own the station x comes in the cyclic order of responders (R119). -/
def cyclicPlace (n x : Station) : Nat := (x.val + 31 - n.val) % 16

/-- x is the next responder of a mend at station n: the first MEMBER after n in the cyclic order, n left out, that is not
in the tried set (R119). -/
def NextAsked (s : State) (tried : Flags16) (x : Station) : Prop :=
  let open_ := fun y : Station =>
    y ≠ s.straps.number ∧ s.mship.table[y].state = .member ∧ flag tried y = false
  open_ x ∧ ∀ y, open_ y → cyclicPlace s.straps.number x ≤ cyclicPlace s.straps.number y

/-- No station is left to ask: every other MEMBER is in the tried set (R119). -/
def NoneLeft (s : State) (tried : Flags16) : Prop :=
  ∀ y : Station, y ≠ s.straps.number → s.mship.table[y].state = .member → flag tried y = true

/-- x is the first responder of a mend of cell c: the holder of its region where that is another MEMBER, else the first MEMBER
in the cyclic order (R119). -/
def FirstAsked (s : State) (c : CellIx) (x : Station) : Prop :=
  (s.locks[regionOf c].holder = some x ∧ x ≠ s.straps.number ∧ s.mship.table[x].state = .member)
    ∨ ((∀ h, s.locks[regionOf c].holder = some h → h = s.straps.number ∨ s.mship.table[h].state ≠ .member)
      ∧ NextAsked s 0 x)

/-- The current mend of cell c with its next attempt made: the MEND to x in the slot, x tried, no window running
(R120, R124). -/
def asked (x : Station) (c : CellIx) (tried : Flags16) (s : State) : State :=
  { s with
    mend := { s.mend with current := some { responder := x, tried := flagSet tried x, window := none } }
    tx := { s.tx with mend := some { responder := x, cell := c } } }

/-! ### Transmission starts -/

/-- The station once k slots have passed and it has begun to send: SENDING with buffer and record empty, the running timers
k slots on, the gap count k higher, the presence timer restarted where it runs (R92, R143, R145, R158). -/
def begun (k : Nat) (s : State) : State :=
  { s with
    bus := { s.bus with state := .sending, buffer := [], record := ReceiveRecord.empty }
    access := { s.access with gapCount := s.access.gapCount + k }
    mship := { s.mship with
      silence := s.mship.silence.map fun t => t.map (· - k)
      presence := s.mship.presence.map fun _ => 4096
      listen := s.mship.listen.map (· - k) }
    mend := { s.mend with current := s.mend.current.map fun m => { m with window := m.window.map (· - k) } } }

/-- No timer of the station runs out within k slots. -/
def NoneRunsOut (k : Nat) (s : State) : Prop :=
  (∀ (x : Station) v, s.mship.silence[x] = some v → k < v) ∧ (∀ v, s.mship.presence = some v → k < v)
    ∧ (∀ v, s.mship.listen = some v → k < v) ∧ ∀ m v, s.mend.current = some m → m.window = some v → k < v

/-- The first moment at which a gap of this many slots has passed comes after k more slots, within the slots that a
TRANSMISSION_START carries, and no timer runs out till then (R158, R159). -/
def FirstMoment (gap slots k : Nat) (s : State) : Prop :=
  k = gap - s.access.gapCount ∧ k ≤ slots ∧ NoneRunsOut k s

/-- The required set of a frame of this body: every JOINING and MEMBER entry but this station's own, and for a DROP but its
target (R167). -/
def RequiredFor (body : Body) (s : State) (required : Flags16) : Prop :=
  ∀ x : Station, flag required x = true ↔
    x ≠ s.straps.number ∧ s.mship.table[x].state ≠ .absent ∧ ∀ r, body ≠ .drop x r

/-- The slot of a new frame of this body: the counter's sequence, this station as sender, the repeat flag clear, the
required set fixed, with the place of a SIGNAL's one target in it, no repeat used, not heard (R131, R164, R166). -/
def NewSlot (body : Body) (ticket : Option TicketNo) (gap : GapKind) (s : State) (sl : Slot) : Prop :=
  sl.frame = { head := { sender := s.straps.number, repeated := false, seq := s.tx.seq }, body := body }
    ∧ RequiredFor body s sl.required ∧ sl.repeats = 0 ∧ sl.heard = false ∧ sl.gap = gap ∧ sl.ticket = ticket
    ∧ ∀ x bytes, body = .signal (some x) bytes → sl.targetIn = flag sl.required x

/-- A cell whose copy is good: PRESENT, no upset outstanding, its check verifying (R3, R6, R7). -/
def GoodCopy (c : CellIx) (s : State) : Prop :=
  s.cells[c].status = .present ∧ s.cells[c].upset = false
    ∧ cellCheck s.cells[c].version (cellData s.mem c) = s.cells[c].check

/-- The content that a build reads afresh from this station's own tables and cells, the rest of the body standing: a
fragment's carried versions, a SNAPSTATE's images, the records of a SNAPCELLS and the answer of a MENDREPLY, good copies
alone being given (R62, R103, R104, R122, R166). That an ABSENT or STALE cell, not reached by R4, gives none is log 20's
choice. -/
def ReadFrom (s : State) (b b' : Body) : Prop :=
  match b with
  | .write w => ∃ w', b' = .write w' ∧ { w' with records := w.records } = w
      ∧ w'.records.map (fun r => (r.cell, r.data)) = w.records.map (fun r => (r.cell, r.data))
      ∧ ∀ r ∈ w'.records, (s.cells[r.cell].status = .present → r.version = succVersion s.cells[r.cell].version)
        ∧ (s.cells[r.cell].status = .damaged → r.version = 0)
  | .snapState t _ => b' = .snapState t { members := s.mship.table, locks := s.locks }
  | .snapCells t g _ => ∃ rs : Vector SnapRecord 8, b' = .snapCells t g rs
      ∧ ∀ i : Fin 8, let c := groupCell g i
        (GoodCopy c s → rs[i] = .present s.cells[c].version (cellData s.mem c)) ∧ (¬ GoodCopy c s → rs[i] = .missing)
  | .mendReply t c _ => ∃ a, b' = .mendReply t c a
      ∧ (GoodCopy c s → a = .data s.cells[c].version (cellData s.mem c)) ∧ (¬ GoodCopy c s → a = .noCopy)
  | b => b' = b

/-- The cells that a build of this body reads and verifies, in index order (R7). -/
def cellsRead (b : Body) : List CellIx :=
  match b with
  | .snapCells _ g _ => (List.finRange 8).map (groupCell g)
  | .mendReply _ c _ => [c]
  | _ => []

/-- What a build changes at the station beside the frame it builds: each PRESENT cell it reads that is no good copy becomes
DAMAGED, its content standing, and at a MEMBER with a mend under way joins the mend list's tail unless listed; with an empty
list a mend begins with the first of them, or each is lost where no station can be asked; where no cell fails, or the station
is no MEMBER, the mend list, the MEND slot and the notices stand; all else is as before (R7, R8, R104, R118, R119, R122,
R127). -/
def BuildReads (b : Body) (before t : State) : Prop :=
  let failing := (cellsRead b).filter fun c =>
    decide (before.cells[c].status = .present) && (before.cells[c].upset
      || decide (cellCheck before.cells[c].version (cellData before.mem c) ≠ before.cells[c].check))
  (∀ c : CellIx, t.cells[c] =
      { before.cells[c] with status := if c ∈ failing then .damaged else before.cells[c].status })
    ∧ (failing = [] ∨ before.mship.state ≠ .member →
      (before.mend.current = none → before.mend.cells = []) ∨ before.mship.state ≠ .member →
      t.mend = before.mend ∧ t.tx.mend = before.tx.mend ∧ t.port.notices = before.port.notices)
    ∧ (before.mship.state = .member → before.mend.current ≠ none →
      t.mend = { before.mend with cells := before.mend.cells ++ failing.filter fun c => decide (c ∉ before.mend.cells) }
        ∧ t.tx.mend = before.tx.mend ∧ t.port.notices = before.port.notices)
    ∧ (before.mship.state = .member → before.mend = { cells := [], current := none } →
      (∀ c rest x, failing = c :: rest → FirstAsked before c x →
        t.mend = { cells := failing, current := some { responder := x, tried := flagSet 0 x, window := none } }
          ∧ t.tx.mend = some { responder := x, cell := c } ∧ t.port.notices = before.port.notices)
      ∧ (NoneLeft before 0 → before.port.notices.length + reserved before.port + failing.length ≤ 32 →
        t.mend = { cells := [], current := none } ∧ t.tx.mend = before.tx.mend
          ∧ t.port.notices = before.port.notices ++ failing.map .cellLost))
    ∧ { t with
        cells := before.cells
        mend := before.mend
        port := { t.port with notices := before.port.notices, noticesDropped := before.port.noticesDropped }
        tx := { t.tx with mend := before.tx.mend } } = before

/-- A TRANSMISSION_START of so many slots builds, k of them having passed, a new frame of this body, its content read at the
start, into the slot, and the station begins to send it; the lists of the Transmit Selector, the sponsor list and the port go
over to those given (R159, R164, R166). -/
def StartsNew (slots k : Nat) (body : Body) (ticket : Option TicketNo) (gap : GapKind) (s : State) (tx : Transmit)
    (sponsor : SponsorUnit) (port : HostPort) : Prop :=
  ∃ t sl body', exec (.transmissionStart slots) s = .next t ∧ ReadFrom s body body' ∧ NewSlot body' ticket gap s sl
    ∧ BuildReads body
      { begun k s with tx := { tx with slot := some sl, seq := s.tx.seq + 1 }, sponsor := sponsor, port := port } t

/-! ### Tickets and notices -/

/-- Ticket k is the one live ticket of its kind and argument. -/
def SoleLive (k : TicketNo) (t : Ticket) (p : HostPort) : Prop :=
  p.tickets[k] = some t ∧ t.state ≠ .done
    ∧ ∀ j u, p.tickets[j] = some u → u.kind = t.kind → u.arg = t.arg → u.state ≠ .done → j = k

/-- The port after ticket k's completion: the ticket DONE, its notice at the queue's tail (R183). -/
def completed (k : TicketNo) (t : Ticket) (o : Completion) (p : HostPort) : HostPort :=
  { p with
    tickets := p.tickets.set k.val (some { t with state := .done })
    notices := p.notices ++ [.completion k t.kind o] }

/-- A ticket can be issued and k is the one that will be: the lowest-numbered free ticket, with an unreserved slot of
the notice queue (R182). -/
def Issuable (k : TicketNo) (p : HostPort) : Prop :=
  p.tickets[k] = none ∧ (∀ j, j < k → p.tickets[j] ≠ none) ∧ p.notices.length + reserved p < 32

/-- The station after the acceptance of a deferred request: ticket k in use, QUEUED, last in the acceptance order, its
entry at the tail of the host send list, ACCEPTED held with the ticket number (R162, R181, R182). -/
def accepted (k : TicketNo) (kind : RequestKind) (arg : TicketArg) (link : Option TicketNo) (f : SendFrame)
    (s : State) : State :=
  { s with
    port := { s.port with
      tickets := s.port.tickets.set k.val (some { kind := kind, state := .queued, arg := arg, link := link })
      order := s.port.order ++ [k]
      phase := .holding { code := .accepted, body := [BitVec.ofNat 8 k.val] } }
    tx := { s.tx with sendList := s.tx.sendList ++ [{ ticket := some k, frame := f }] } }

/-! ### Departure -/

/-- The group state given up in one step, whatever the reason (R14, R35, R55, R75, R94, R116, R129, R173, R191): each
PRESENT cell STALE, every mark clear, no data, version or check changed; tables, staging, draft, buffer, lists and queues
cleared; every live ticket DONE with a LOST completion; the watch set, the port's response, the sequence counter, the
alternation flag, the settings and the listening condition kept. -/
def Departed (s t : State) : Prop :=
  t.mem = s.mem
    ∧ (∀ c : CellIx, t.cells[c] = { s.cells[c] with
        status := if s.cells[c].status = .present then .stale else s.cells[c].status, fresh := false })
    ∧ t.apply = { doubt := .clear, foreign := 0, staging := none }
    ∧ (∀ r : Region, t.locks[r] = { holder := none, waiters := [] })
    ∧ (∀ x : Station, t.mship.table[x] = { state := .absent, lastSeq := 0, sponsor := none, joinPlace := none })
    ∧ (∀ x : Station, t.mship.silence[x] = none) ∧ t.mship.presence = none
    ∧ t.mship.departed = true ∧ t.mship.listening = true
    ∧ t.mship.repeatLimit = s.mship.repeatLimit ∧ t.mship.autoRejoin = s.mship.autoRejoin
    ∧ t.sponsor = { joiners := [], cursor := 0 }
    ∧ t.bundle = { draft := [], outgoing := none }
    ∧ t.mend = { cells := [], current := none }
    ∧ (∀ (k : TicketNo) u, s.port.tickets[k] = some u → t.port.tickets[k] = some { u with state := .done }
        ∧ (u.state ≠ .done → .completion k u.kind .lost ∈ t.port.notices))
    ∧ (∀ k : TicketNo, s.port.tickets[k] = none → t.port.tickets[k] = none)
    ∧ s.port.notices <+: t.port.notices
    ∧ t.port.phase = s.port.phase ∧ t.port.watch = s.port.watch ∧ t.port.order = s.port.order
    ∧ t.tx.drops = [] ∧ t.tx.replies = [] ∧ t.tx.mend = none ∧ t.tx.presence = false ∧ t.tx.slot = none
    ∧ t.tx.seq = s.tx.seq ∧ t.tx.lastSource = s.tx.lastSource
    ∧ t.straps = s.straps ∧ t.pending = s.pending

/-! ### The laws that every step keeps -/

/-- The cell data memory is in canonical form, with no address outside the 8192 bytes (R1). -/
def StoreLaw (s : State) : Prop := Memory.wf s.mem ∧ ∀ p ∈ s.mem, p.1 < 8192

/-- A COMPLETION of ticket k. -/
def isCompletionOf (k : TicketNo) (n : Notice) : Bool :=
  match n with
  | .completion j _ _ => j == k
  | _ => false

/-- The Request Table and the notice queue: entries and reserved slots fit the queue (R184); the acceptance order names
each ticket in use once (R182); a DONE ticket has exactly one completion in the queue and no other ticket has any
(R183); at most one CHANGED stands for a region (R137). -/
def PortLaw (s : State) : Prop :=
  s.port.notices.length + reserved s.port ≤ 32
    ∧ s.port.order.Nodup
    ∧ (∀ k, k ∈ s.port.order ↔ s.port.tickets[k] ≠ none)
    ∧ (∀ k, s.port.notices.countP (isCompletionOf k) = if s.port.tickets[k].any (·.state == .done) then 1 else 0)
    ∧ ∀ r, s.port.notices.countP (isChangedFor r) ≤ 1

/-- The Lock Table's laws: a holder and every waiter are MEMBER, the holder does not wait, no station waits twice, a
free region has no waiter (R36). -/
def LockLaw (s : State) : Prop :=
  ∀ r : Region,
    (∀ h, s.locks[r].holder = some h → s.mship.table[h].state = .member ∧ h ∉ s.locks[r].waiters)
      ∧ (∀ w ∈ s.locks[r].waiters, s.mship.table[w].state = .member)
      ∧ s.locks[r].waiters.Nodup
      ∧ (s.locks[r].holder = none → s.locks[r].waiters = [])

/-- The Membership Table's laws: a JOINING entry has a MEMBER as sponsor and a join place, any other entry neither; the
join places are 0 to n - 1, each once (R78). -/
def TableLaw (s : State) : Prop :=
  (∀ x : Station, s.mship.table[x].state = .joining →
      (∃ y, s.mship.table[x].sponsor = some y ∧ s.mship.table[y].state = .member)
        ∧ ∃ p, s.mship.table[x].joinPlace = some p ∧ p < joiningCount s.mship.table)
    ∧ (∀ x : Station, s.mship.table[x].state ≠ .joining →
      s.mship.table[x].sponsor = none ∧ s.mship.table[x].joinPlace = none)
    ∧ ∀ x y : Station, s.mship.table[x].state = .joining → s.mship.table[y].state = .joining →
      s.mship.table[x].joinPlace = s.mship.table[y].joinPlace → x = y

/-- The sponsor list names, each once, the JOINING entries whose sponsor this station is (R99). -/
def SponsorLaw (s : State) : Prop :=
  s.sponsor.joiners.Nodup
    ∧ ∀ x : Station, x ∈ s.sponsor.joiners ↔
      s.mship.table[x].state = .joining ∧ s.mship.table[x].sponsor = some s.straps.number

/-- This station's own entry follows its state: MEMBER in MEMBER, JOINING in FILLING, and no entry at all stands in a
state that holds no table (R76, R84, R98); in LEAVING it is MEMBER or gone, never JOINING (R86, R88); a LEAVE is queued or
unsettled in LEAVING alone (R86); the frame in the slot bears this station's number (R166). -/
def OwnEntryLaw (s : State) : Prop :=
  (s.mship.state = .member → s.mship.table[s.straps.number].state = .member)
    ∧ (s.mship.state = .filling → s.mship.table[s.straps.number].state = .joining)
    ∧ (s.mship.state = .leaving → s.mship.table[s.straps.number].state ≠ .joining)
    ∧ (isHolder s.mship.state = false → ∀ x : Station, s.mship.table[x].state = .absent)
    ∧ ((∃ sl, s.tx.slot = some sl ∧ sl.frame.body = .leave) ∨ (∃ e ∈ s.tx.sendList, e.frame = .leave) →
      s.mship.state = .leaving)
    ∧ ∀ sl, s.tx.slot = some sl → sl.frame.head.sender = s.straps.number

/-- The laws of the replicated tables together. -/
def GroupLaw (s : State) : Prop := LockLaw s ∧ TableLaw s ∧ SponsorLaw s ∧ OwnEntryLaw s

/-- The capacities and orders of the station's own lists: the draft and the outgoing bundle hold at most 32 cells and
none twice (R57); the mend list holds no cell twice and a current mend has its cell at the head (R117); at most 8
MENDREPLY entries and no two DROPs naming one station are queued, a settlement DROP with reason NO_ACK (R163, R169); the
collision count is at most 8 (R160); the snapshot cursor is at most 33, and 0 while no joiner is served (R99). -/
def CapacityLaw (s : State) : Prop :=
  (s.bundle.draft.length ≤ 32 ∧ (s.bundle.draft.map (·.cell)).Nodup)
    ∧ (∀ b, s.bundle.outgoing = some b → b.entries.length ≤ 32 ∧ (b.entries.map (·.cell)).Nodup)
    ∧ (s.mend.cells.Nodup ∧ (s.mend.current ≠ none → s.mend.cells ≠ []))
    ∧ (s.tx.replies.length ≤ 8 ∧ (s.tx.drops.map (·.target)).Nodup
      ∧ ∀ d ∈ s.tx.drops, d.cls = .settlement → d.reason = .noAck)
    ∧ s.access.collisions ≤ 8
    ∧ (s.sponsor.cursor ≤ 33 ∧ (s.sponsor.joiners = [] → s.sponsor.cursor = 0))

end Sys2Proof.Safety
end

