-- ==== Sys2Proof/Certificates/Slice0/Obligations.lean ====
section
/-! DEFINITION. The statements for the provers. Each docstring names the spec's rules it rests on, and says where a
clause is the model's choice. -/

open Sys2Proof Sys2Proof.Machine Sys2Proof.Safety

/-! ### The step and the laws -/

/-- The step carries out the command at the front of the queue on the state with the queue's rest. -/
def Obligations.StepRunsFrontCommand : Prop :=
  ∀ (c : Instr) (rest : List Instr) (s : State),
    step { s with pending := c :: rest } = exec c { s with pending := rest }

/-- Every command completes in every state, with neither fault nor refusal, and leaves the queue of waiting commands as
it is; the station number, the rate code and the reset level change at RESET and RESET_RELEASE alone (R154, R188). That no
command faults or is refused, and that one whose event cannot occur in the state at hand still completes, is the model's
choice (log 25, log 3). -/
def Obligations.EveryCommandCompletes : Prop :=
  ∀ (c : Instr) (s : State), ∃ t, exec c s = .next t ∧ t.pending = s.pending
    ∧ (c ≠ .reset → (∀ n r, c ≠ .resetRelease n r) → t.straps = s.straps)

/-- Every step keeps the cell data memory in canonical form, within its 8192 bytes (R1). -/
def Obligations.StepKeepsStoreLaw : Prop :=
  ∀ s t : State, StoreLaw s → step s = .next t → StoreLaw t

/-- Every step keeps the laws of the Request Table and the notice queue: room for every reserved completion, exactly one
completion for a DONE ticket, the acceptance order, one CHANGED a region (R137, R182, R183, R184). -/
def Obligations.StepKeepsPortLaw : Prop :=
  ∀ s t : State, PortLaw s → step s = .next t → PortLaw t

/-- Every step keeps the laws of the Lock Table, the Membership Table and the sponsor list (R36, R78, R99). -/
def Obligations.StepKeepsGroupLaw : Prop :=
  ∀ s t : State, GroupLaw s → step s = .next t → GroupLaw t

/-- Every step keeps the capacities and orders of the station's lists (R57, R99, R117, R160, R163). -/
def Obligations.StepKeepsCapacityLaw : Prop :=
  ∀ s t : State, CapacityLaw s → step s = .next t → CapacityLaw t

/-- The four laws hold right after reset. -/
def Obligations.LawsHoldAtReset : Prop :=
  StoreLaw State.reset ∧ PortLaw State.reset ∧ GroupLaw State.reset ∧ CapacityLaw State.reset

/-! ### Frames as bytes -/

/-- The bytes of a frame that passes a station's field checks, sent in the line code of R141 byte by byte, are framed,
assembled and read back by that station's receiver as that very frame (R141, R193 to R195). -/
def Obligations.WireRoundTrip : Prop :=
  ∀ (n : Station) (f : Frame), frameOkAt n f = true → classify n true (onLine (frameBytes f)) = .good f

/-- A frame heard level by level does at its carrier end what the frame's own command does, at a station that is not the
one driving it. That DAMAGED_FRAME hands on what passes every check as the good frame it is, is log 8's choice, and that a
frame command stands for its whole carrier is log 7's. -/
def Obligations.HeardBytesActAsTheirFrame : Prop :=
  ∀ (s : State) (f : Frame), s.bus.state ≠ .sending → frameOkAt s.straps.number f = true →
    exec (.damagedFrame (onLine (frameBytes f))) s = exec (frameCommand f) s

/-! ### Reset -/

/-- What reset and its release leave, block by block (R18, R35, R55, R75, R98, R116, R129, R135, R154, R174, R192). That
a RESET leaves the station deaf until a RESET_RELEASE, with the straps kept, is the model's form of the reset level
(log 2), and the bus's report is the model's own field (log 13). -/
def Obligations.ResetLeavesResetValues : Prop :=
  ∀ (s : State) (number : Station) (rate : Fin 4),
    ∃ t u, exec (.resetRelease number rate) s = .next t
      ∧ exec .reset s = .next u
      ∧ u = { t with straps := { s.straps with inReset := true } }
      ∧ t.straps = { number := number, rate := rate, inReset := false }
      ∧ t.pending = s.pending
      ∧ (∀ a, memRead t.mem a = 0)
      ∧ (∀ c : CellIx, t.cells[c] =
          { version := 0, check := cellCheck 0 zeroData, status := .absent, fresh := false, upset := false })
      ∧ t.apply = { doubt := .clear, foreign := 0, staging := none }
      ∧ (∀ r : Region, t.locks[r] = { holder := none, waiters := [] })
      ∧ t.mship.state = .unconfigured
      ∧ (∀ x : Station, t.mship.table[x] = { state := .absent, lastSeq := 0, sponsor := none, joinPlace := none })
      ∧ (∀ x : Station, t.mship.silence[x] = none)
      ∧ t.mship.presence = none ∧ t.mship.listen = none ∧ t.mship.listening = false ∧ t.mship.departed = false
      ∧ t.mship.repeatLimit = none ∧ t.mship.autoRejoin = none
      ∧ t.sponsor = { joiners := [], cursor := 0 }
      ∧ t.bundle = { draft := [], outgoing := none }
      ∧ t.mend = { cells := [], current := none }
      ∧ t.port.phase = .idle ∧ t.port.refusedLast = false ∧ t.port.noticesDropped = false
      ∧ (∀ k : TicketNo, t.port.tickets[k] = none) ∧ t.port.order = [] ∧ t.port.notices = [] ∧ t.port.watch = 0
      ∧ t.bus.state = .idle ∧ t.bus.buffer = [] ∧ t.bus.ackMap = 0 ∧ t.bus.ackDrive = false ∧ t.bus.report = .heard
      ∧ t.bus.record = { startMark := false, framed := 0, unframed := false, header := .notMade }
      ∧ t.access = { reference := none, gapCount := 0, collisions := 0, holdOff := none }
      ∧ t.tx = { sendList := [], drops := [], replies := [], mend := none, presence := false, slot := none, seq := 0,
                 lastSource := .hostList }

/-- While reset is applied the station takes no transaction and hears nothing: every command but a reset or its release
leaves the state as it is (R154, R192; the form is log 2's). -/
def Obligations.NothingHappensInReset : Prop :=
  ∀ (c : Instr) (s : State), s.straps.inReset = true → c ≠ .reset → (∀ n r, c ≠ .resetRelease n r) →
    exec c s = .next s

/-! ### The Host Port -/

/-- A POLL changes nothing but what SDO carried: the status byte with its five flags and the station state, then 00h
(R176, R177). That SDO's bytes stand in the state is log 11's choice. -/
def Obligations.PollShowsStatusByte : Prop :=
  ∀ (s : State) (n : Nat), Running s →
    ∃ b : Byte,
      exec (.poll n) s = .next { s with port := { s.port with sdo := b :: List.replicate n 0 } }
        ∧ (b.getLsbD 7 = true ↔ s.port.phase = .idle)
        ∧ (b.getLsbD 6 = true ↔ ∃ r, s.port.phase = .holding r)
        ∧ (b.getLsbD 5 = true ↔ s.port.notices ≠ [])
        ∧ b.getLsbD 4 = s.port.refusedLast
        ∧ b.getLsbD 3 = s.port.noticesDropped
        ∧ b.extractLsb' 0 3 = stationStateCode s.mship.state

/-- A FETCH that finds a held response shifts out the status byte, the result code, the body length most significant byte
first and the body, then 00h; with every byte of the response shifted out the port returns to IDLE, short of it the
response stays held whole. In IDLE the reply is NONE and in WORKING it is PENDING, each with an empty body, and nothing
else changes (R178, R180, R196). -/
def Obligations.FetchAnswersByPortState : Prop :=
  ∀ (s : State) (k : Nat), Running s →
    (∀ r, s.port.phase = .holding r →
      let reply : List Byte :=
        resultByte r.code :: BitVec.ofNat 8 (r.body.length / 256) :: BitVec.ofNat 8 r.body.length :: r.body
      exec (.fetch (reply.length + k)) s =
          .next { s with port := { s.port with
            phase := .idle, sdo := statusByte s :: reply ++ List.replicate k 0 } }
        ∧ ∀ n, n < reply.length → exec (.fetch n) s =
          .next { s with port := { s.port with sdo := statusByte s :: reply.take n } })
      ∧ (s.port.phase = .idle → exec (.fetch (3 + k)) s =
        .next { s with port := { s.port with sdo := statusByte s :: 0x03 :: List.replicate (2 + k) 0 } })
      ∧ ∀ rq, s.port.phase = .working rq → exec (.fetch (3 + k)) s =
        .next { s with port := { s.port with sdo := statusByte s :: 0x02 :: List.replicate (2 + k) 0 } }

/-- A REQUEST transaction at the IDLE port is taken when its code lies in 01h to 1Fh and its length byte counts its
arguments, is no more than 33, and fits a code of fixed length; an otherwise framed one is not taken: FRAMING is held and
REFUSED_LAST set. At a WORKING or HOLDING port any is refused as busy, with the request in hand or the response
undisturbed. The failures of framing: a first byte that selects no kind, no length byte, a length above 33, another number
of argument bytes than the length says, another length than the code's fixed one (R178, R179). A request taken is carried
out, and its response held, before anything else at the station: an event of the bus, a timer or the storage finds the
state that the request's own command leaves, and so does a slot that passes with no command waiting (R181; that a command is
never under way when a request is taken, and the check point so comes first, is log 32's form). -/
def Obligations.RequestTakenWhenIdle : Prop :=
  (∀ (s : State) (code : Byte) (rest : List Byte), Running s → code ≠ 0x00 → code ≠ 0x80 →
    let sdo := statusByte s :: List.replicate rest.length 0
    let bad := 31 < code.toNat ∨ rest = []
      ∨ ∃ len args, rest = len :: args
          ∧ (33 < len.toNat ∨ args.length ≠ len.toNat ∨ ∃ n, fixedLength code = some n ∧ len.toNat ≠ n)
    (∀ args, rest = BitVec.ofNat 8 args.length :: args → ¬ bad → s.port.phase = .idle →
        exec (.requestTransaction (code :: rest)) s = .next { s with port := { s.port with
          phase := .working { code := code, args := args }, refusedLast := false, sdo := sdo } })
      ∧ (bad → s.port.phase = .idle → exec (.requestTransaction (code :: rest)) s =
        .next { s with port := { s.port with
          phase := .holding { code := .framing, body := [] }, refusedLast := true, sdo := sdo } })
      ∧ (s.port.phase ≠ .idle → exec (.requestTransaction (code :: rest)) s =
        .next { s with port := { s.port with refusedLast := true, sdo := sdo } }))
  ∧ ∀ (s t : State) (rq : Request), Running s → s.port.phase = .working rq → exec (requestCommand rq.code) s = .next t →
    (∃ r, t.port.phase = .holding r)
      ∧ (∀ c, isEvent c = true → exec c s = exec c t)
      ∧ (s.pending = [] → step s = step t)

/-- A request whose code is assigned to none is answered BAD_REQUEST at its check point, with no other effect (R179,
R196). -/
def Obligations.UnassignedCodeRefused : Prop :=
  ∀ (s : State) (code : Byte) (args : List Byte), InHand code args s →
    ((0x0B ≤ code.toNat ∧ code.toNat ≤ 0x0F) ∨ (0x17 ≤ code.toNat ∧ code.toNat ≤ 0x1F)) →
    exec .unassignedRequest s = .next (answered .badRequest [] s)

/-! ### Immediate requests -/

/-- STATUS answers OK with a body of 31 bytes read at one point, the fields in the order of 12.4, and clears
NOTICES_DROPPED and nothing else (R186, R189). -/
def Obligations.StatusReportsStation : Prop :=
  ∀ s : State, InHand 0x01 [] s →
    ∃ members doubt,
      exec .status s = .next (answered .ok
        ([BitVec.ofNat 8 s.straps.number.val, BitVec.ofNat 8 s.straps.rate.val,
          (stationStateCode s.mship.state).setWidth 8, BitVec.ofNat 8 (s.mship.repeatLimit.getD 0),
          (if s.mship.autoRejoin = none then 0xFF else if s.mship.autoRejoin = some true then 0x01 else 0x00)]
          ++ members ++ s.port.tickets.toList.map ticketByte
          ++ [BitVec.ofNat 8 s.port.notices.length, BitVec.ofNat 8 (reserved s.port),
              BitVec.ofNat 8 s.bundle.draft.length, (if s.bundle.outgoing = none then 0x00 else 0x01)]
          ++ doubt ++ [if s.port.noticesDropped then 0x01 else 0x00])
        { s with port := { s.port with noticesDropped := false } })
      ∧ members.length = 2
      ∧ (∀ x : Station, (members.getD (x.val / 8) 0).getLsbD (x.val % 8) = decide (s.mship.table[x].state = .member))
      ∧ (s.apply.doubt = .clear → doubt = [0x00, 0xFF, 0x00])
      ∧ (s.apply.doubt = .unknown → doubt = [0x01, 0xFF, 0x00])
      ∧ ∀ x q, s.apply.doubt = .known x q → doubt = [0x02, BitVec.ofNat 8 x.val, q]

/-- CONFIGURE in UNCONFIGURED with a repeat limit of 1 to 7 and an auto-rejoin byte of 00h or 01h sets both, moves the
station to OUTSIDE and starts the listen timer at 16384 slots; with another argument it is refused BAD_ARG, and in
another state WRONG_STATE (R77, R188). A second CONFIGURE with an argument out of range is answered BAD_ARG: R188's table of
checks and R190 put the argument first, although R188 also says WRONG_STATE whatever its arguments (log 30). -/
def Obligations.ConfigureSetsStation : Prop :=
  ∀ (s : State) (n a : Byte), InHand 0x02 [n, a] s →
    let good := (1 ≤ n.toNat ∧ n.toNat ≤ 7) ∧ (a = 0x00 ∨ a = 0x01)
    (good → s.mship.state = .unconfigured → exec .configure s = .next (answered .ok []
        { s with mship := { s.mship with
          state := .outside, repeatLimit := some n.toNat, autoRejoin := some (a == 0x01), listen := some 16384 } }))
      ∧ (¬ good → exec .configure s = .next (answered .badArg [] s))
      ∧ (good → s.mship.state ≠ .unconfigured → exec .configure s = .next (answered .wrongState [] s))

/-- READ_CELLS of n cells of one region answers OK with the n results in index order; a cell that fails its verification
becomes DAMAGED with its data, version, check and mark left as they were, and no other cell changes; the tables, the
draft, the bus and every ticket stand; outside MEMBER the mend list stands too. At a MEMBER with a mend under way the failing
cells join the list's tail in index order; with none under way a mend begins with the first of them: the holder of its region
is asked first where that is another MEMBER, else the first MEMBER in the cyclic order; with no other MEMBER each is lost at
once, CELL_LOST being posted for it in index order. A count of 0 or above 16, or cells of two regions, are refused BAD_ARG
with nothing verified (R7, R8, R16, R17, R117 to R119, R127). -/
def Obligations.ReadCellsVerifies : Prop :=
  ∀ (s : State) (f n : Byte), InHand 0x03 [f, n] s →
    let good := (1 ≤ n.toNat ∧ n.toNat ≤ 16) ∧ f.toNat / 16 = (f.toNat + n.toNat - 1) / 16
    let inRange := fun c : CellIx => f.toNat ≤ c.val ∧ c.val < f.toNat + n.toNat
    let read := (List.finRange 256).filter fun c => decide (inRange c)
    let failing := read.filter fun c => decide (s.cells[c].status ≠ .damaged ∧ statusAfterRead s c = .damaged)
    (¬ good → exec .readCells s = .next (answered .badArg [] s))
      ∧ (good → ∃ t, exec .readCells s = .next t
        ∧ t.port.phase = .holding { code := .ok
                                    body := read.flatMap fun c => cellBytes s c (statusAfterRead s c) }
        ∧ (∀ c : CellIx, inRange c → t.cells[c] = { s.cells[c] with status := statusAfterRead s c })
        ∧ (∀ c : CellIx, ¬ inRange c → t.cells[c] = s.cells[c])
        ∧ t.mem = s.mem ∧ t.apply = s.apply ∧ t.locks = s.locks ∧ t.mship = s.mship ∧ t.sponsor = s.sponsor
        ∧ t.bundle = s.bundle ∧ t.bus = s.bus ∧ t.access = s.access ∧ t.straps = s.straps ∧ t.pending = s.pending
        ∧ t.port.tickets = s.port.tickets ∧ t.port.order = s.port.order ∧ t.port.watch = s.port.watch
        ∧ t.port.refusedLast = s.port.refusedLast ∧ t.port.sdo = s.port.sdo ∧ s.port.notices <+: t.port.notices
        ∧ { t.tx with mend := s.tx.mend } = s.tx
        ∧ (s.mship.state ≠ .member → t.mend = s.mend ∧ t.tx = s.tx ∧ t.port.notices = s.port.notices)
        ∧ (s.mship.state = .member → s.mend.current ≠ none →
          t.mend = { s.mend with cells := s.mend.cells ++ failing.filter fun c => decide (c ∉ s.mend.cells) }
            ∧ t.tx = s.tx ∧ t.port.notices = s.port.notices)
        ∧ (s.mship.state = .member → s.mend = { cells := [], current := none } →
          (∀ c rest x, failing = c :: rest →
            ((s.locks[regionOf c].holder = some x ∧ x ≠ s.straps.number ∧ s.mship.table[x].state = .member)
              ∨ ((∀ h, s.locks[regionOf c].holder = some h → h = s.straps.number ∨ s.mship.table[h].state ≠ .member)
                ∧ NextAsked s 0 x)) →
            t.mend = { cells := failing, current := some { responder := x, tried := flagSet 0 x, window := none } }
              ∧ t.tx.mend = some { responder := x, cell := c } ∧ t.port.notices = s.port.notices)
          ∧ (NoneLeft s 0 → s.port.notices.length + reserved s.port + failing.length ≤ 32 →
            t.mend = { cells := [], current := none } ∧ t.tx = s.tx
              ∧ t.port.notices = s.port.notices ++ failing.map .cellLost)))

/-- STAGE_CELL of 32 bytes for a cell whose region this MEMBER holds replaces the cell's entry in its place, or appends
one while the draft holds fewer than 32, and answers OK with the draft's count; otherwise it is refused WRONG_STATE,
NOT_HOLDER or DRAFT_FULL, in that order, and the draft stands (R58). -/
def Obligations.StageCellFillsDraft : Prop :=
  ∀ (s : State) (c : Byte) (d : CellData), InHand 0x08 (c :: d.toList) s →
    let cell : CellIx := ⟨c.toNat, c.isLt⟩
    let holds := s.locks[regionOf cell].holder = some s.straps.number
    let staged := ∃ e ∈ s.bundle.draft, e.cell = cell
    (s.mship.state = .member → holds → staged → exec .stageCell s =
        .next (answered .ok [BitVec.ofNat 8 s.bundle.draft.length] { s with bundle := { s.bundle with
          draft := s.bundle.draft.map fun e => if e.cell = cell then { e with data := d } else e } }))
      ∧ (s.mship.state = .member → holds → ¬ staged → s.bundle.draft.length < 32 → exec .stageCell s =
        .next (answered .ok [BitVec.ofNat 8 (s.bundle.draft.length + 1)] { s with bundle := { s.bundle with
          draft := s.bundle.draft ++ [{ cell := cell, data := d }] } }))
      ∧ (s.mship.state ≠ .member → exec .stageCell s = .next (answered .wrongState [] s))
      ∧ (s.mship.state = .member → ¬ holds → exec .stageCell s = .next (answered .notHolder [] s))
      ∧ (s.mship.state = .member → holds → ¬ staged → 32 ≤ s.bundle.draft.length →
          exec .stageCell s = .next (answered .draftFull [] s))

/-- UNSTAGE_CELL removes a staged cell, the others in their order, and answers OK with the count left; a cell not staged
answers NONE and nothing changes; a cell unstaged and staged again goes to the tail; DISCARD_DRAFT empties the draft and
answers OK. Both do so in every station state and leave the outgoing bundle buffer as it is; where the draft is empty, as
it is in every state but MEMBER, UNSTAGE_CELL answers NONE (R59). -/
def Obligations.UnstageAndDiscard : Prop :=
  ∀ (s : State),
    (∀ c : Byte, InHand 0x09 [c] s →
      let cell : CellIx := ⟨c.toNat, c.isLt⟩
      let rest := s.bundle.draft.filter fun e => decide (e.cell ≠ cell)
      ((∃ e ∈ s.bundle.draft, e.cell = cell) → exec .unstageCell s =
          .next (answered .ok [BitVec.ofNat 8 rest.length] { s with bundle := { s.bundle with draft := rest } }))
        ∧ ((¬ ∃ e ∈ s.bundle.draft, e.cell = cell) → exec .unstageCell s = .next (answered .none [] s))
        ∧ (∀ d, stageInto cell d rest = rest ++ [{ cell := cell, data := d }])
        ∧ (s.mship.state ≠ .member → s.bundle.draft = [] → exec .unstageCell s = .next (answered .none [] s)))
      ∧ (InHand 0x0A [] s →
        exec .discardDraft s = .next (answered .ok [] { s with bundle := { s.bundle with draft := [] } }))

/-- TAKE_NOTICE removes the oldest notice and answers it; the ticket of a COMPLETION is freed in the same step, and no
other ticket changes; with the queue empty the answer is EMPTY and nothing changes (R183, R185). -/
def Obligations.TakeNoticeRemovesOldest : Prop :=
  ∀ s : State, InHand 0x06 [] s →
    (s.port.notices = [] → exec .takeNotice s = .next (answered .empty [] s))
      ∧ (∀ k kind o rest, s.port.notices = .completion k kind o :: rest → exec .takeNotice s =
          .next (answered .ok [0x01, BitVec.ofNat 8 k.val, requestKindByte kind, completionByte o]
            { s with port := { s.port with
              notices := rest, tickets := s.port.tickets.set k.val none
              order := s.port.order.filter fun j => decide (j ≠ k) } }))
      ∧ ∀ n rest, s.port.notices = n :: rest → (∀ k kind o, n ≠ .completion k kind o) → exec .takeNotice s =
          .next (answered .ok (noticeBytes n) { s with port := { s.port with notices := rest } })

/-- The watch set: empty after reset; SET_WATCH, in every station state, replaces it whole, region r by bit r mod 8 of
byte r / 8, and answers OK with the set in force, no notice being posted or removed; with other than two argument bytes it is
FRAMING; no other command but a reset changes it, CONFIGURE, departures, founding and fills among them. A bundle is judged by
the set in force at its commit point: with the flag of a region clear no CHANGED for that region is posted or altered, and
with it set a bundle of a peer that is written and touches the region is reported, or NOTICES_DROPPED is set where the notice
finds no room. No other request, and no other transaction, reads the set (R135, R136). That a marked DAMAGED cell at a FILLING
station accepts any version, by R69's table, is log 33's deduction. -/
def Obligations.SetWatchReplacesSet : Prop :=
  (∀ (s t : State) (c : Instr), c = .reset ∨ (∃ n r, c = .resetRelease n r) → exec c s = .next t → t.port.watch = 0)
    ∧ (∀ (s : State) (a b : Byte), InHand 0x07 [a, b] s →
      ∃ w, exec .setWatch s = .next (answered .ok [a, b] { s with port := { s.port with watch := w } })
        ∧ ∀ r : Region, flag w r = if r.val < 8 then a.getLsbD r.val else b.getLsbD (r.val - 8))
    ∧ (∀ (s : State) (args : List Byte), Running s → s.port.phase = .idle → args.length ≠ 2 → args.length < 256 →
      ∃ sdo, exec (.requestTransaction (0x07 :: BitVec.ofNat 8 args.length :: args)) s = .next { s with port :=
        { s.port with phase := .holding { code := .framing, body := [] }, refusedLast := true, sdo := sdo } })
    ∧ (∀ (s t : State) (c : Instr), c ≠ .reset → (∀ n r, c ≠ .resetRelease n r) →
      (∀ args, s.port.phase ≠ .working { code := 0x07, args := args }) → exec c s = .next t →
      t.port.watch = s.port.watch)
    ∧ (∀ (s t : State) (c : Instr) (r : Region), (∀ rq, s.port.phase ≠ .working rq) → flag s.port.watch r = false →
      exec c s = .next t → ∀ n ∈ t.port.notices, isChangedFor r n = true → n ∈ s.port.notices)
    ∧ (∀ (s t : State) (h : FrameHead) (w : WriteBody) (recs : List WriteRecord) (r : Region),
      Applies s { head := h, body := .write w } →
      (((∀ st, s.apply.staging = some st → st.sender ≠ h.sender) ∧ w.index = 0 ∧ w.count = 1 ∧ recs = w.records)
        ∨ ∃ st, s.apply.staging = some st ∧ st.sender = h.sender ∧ w.index = st.expected ∧ w.count = st.count
          ∧ w.index + 1 = w.count ∧ recs = st.records ++ w.records) →
      (∀ a ∈ recs, s.locks[regionOf a.cell].holder = some h.sender
        ∧ ((s.mship.state = .filling ∧ s.cells[a.cell].fresh = false)
          ∨ s.cells[a.cell].status = .damaged
          ∨ (s.cells[a.cell].status = .present
            ∧ (a.version = 0 ∨ a.version = succVersion s.cells[a.cell].version)))) →
      (∃ a ∈ recs, regionOf a.cell = r) → flag s.port.watch r = true → exec (.writeFrame h w) s = .next t →
      (∃ rep, .changed r h.sender rep ∈ t.port.notices) ∨ t.port.noticesDropped = true)
    ∧ ∀ (s t : State) (c : Instr) (set : Flags16), c ∈ [.status, .configure, .readCells, .stageCell, .unstageCell,
        .discardDraft, .takeNotice, .readRegion, .readMembers, .join, .leave, .claim, .release, .withdraw, .commit,
        .signal, .unassignedRequest] ∨ (∃ k, c = .poll k) ∨ (∃ k, c = .fetch k) ∨ (∃ b, c = .requestTransaction b) →
      exec c s = .next t →
      exec c { s with port := { s.port with watch := set } } = .next { t with port := { t.port with watch := set } }

/-- READ_REGION answers OK with the holder (FFh for none), the waiter count and the waiters oldest first, for a region of
0 to 15, and BAD_ARG above it; READ_MEMBERS answers OK with the station state and the 16 entries in station order, three
bytes each. Neither changes anything else (R54, R97, R194, 12.4). -/
def Obligations.TablesReadBack : Prop :=
  ∀ (s : State),
    (∀ b : Byte, InHand 0x04 [b] s →
      (∀ r : Region, b.toNat = r.val → exec .readRegion s =
          .next (answered .ok
            ((match s.locks[r].holder with
              | some h => BitVec.ofNat 8 h.val
              | none => 0xFF)
              :: BitVec.ofNat 8 s.locks[r].waiters.length :: s.locks[r].waiters.map fun w => BitVec.ofNat 8 w.val) s))
        ∧ (16 ≤ b.toNat → exec .readRegion s = .next (answered .badArg [] s)))
      ∧ (InHand 0x05 [] s → ∃ entries,
        exec .readMembers s =
            .next (answered .ok ((stationStateCode s.mship.state).setWidth 8 :: entries) s)
          ∧ entries.length = 48
          ∧ ∀ x : Station,
            let e := s.mship.table[x]
            (entries.getD (3 * x.val) 0).extractLsb' 6 2 = entryStateCode e.state
              ∧ (∀ p, e.joinPlace = some p → p ≤ 14 → (entries.getD (3 * x.val) 0).extractLsb' 0 6 = BitVec.ofNat 6 p)
              ∧ (e.joinPlace = none → (entries.getD (3 * x.val) 0).extractLsb' 0 6 = 15)
              ∧ entries.getD (3 * x.val + 1) 0 = e.lastSeq
              ∧ entries.getD (3 * x.val + 2) 0 = optStationByte e.sponsor)

/-! ### Deferred requests -/

/-- JOIN in OUTSIDE with a ticket to issue moves the station to JOIN_SENT and is accepted; in another state it is refused
WRONG_STATE, and without a ticket NO_TICKET (R79, R182). -/
def Obligations.JoinAccepted : Prop :=
  ∀ (s : State), InHand 0x10 [] s →
    (∀ k, s.mship.state = .outside → Issuable k s.port → exec .join s =
        .next (accepted k .join .none none .join { s with mship := { s.mship with state := .joinSent } }))
      ∧ (s.mship.state ≠ .outside → exec .join s = .next (answered .wrongState [] s))
      ∧ (s.mship.state = .outside → (∀ k, ¬ Issuable k s.port) → exec .join s = .next (answered .noTicket [] s))

/-- CLAIM of a region the MEMBER neither holds, waits on nor has a live CLAIM for is accepted, and changes nothing but the
ticket, the send list and the response; otherwise it is refused BAD_ARG, WRONG_STATE, ALREADY or NO_TICKET, in that order
(R44, R45, R182). -/
def Obligations.ClaimAccepted : Prop :=
  ∀ (s : State) (b : Byte), InHand 0x12 [b] s →
    (16 ≤ b.toNat → exec .claim s = .next (answered .badArg [] s))
      ∧ ∀ r : Region, b.toNat = r.val →
        let already := s.locks[r].holder = some s.straps.number ∨ s.straps.number ∈ s.locks[r].waiters
          ∨ ∃ k t, s.port.tickets[(k : TicketNo)] = some t ∧ t.kind = .claim ∧ t.arg = .region r ∧ t.state ≠ .done
        (∀ k, s.mship.state = .member → ¬ already → Issuable k s.port →
            exec .claim s = .next (accepted k .claim (.region r) none (.claim r) s))
          ∧ (s.mship.state ≠ .member → exec .claim s = .next (answered .wrongState [] s))
          ∧ (s.mship.state = .member → already → exec .claim s = .next (answered .already [] s))
          ∧ (s.mship.state = .member → ¬ already → (∀ k, ¬ Issuable k s.port) →
            exec .claim s = .next (answered .noTicket [] s))

/-- RELEASE of a region the MEMBER holds, with no live RELEASE or WITHDRAW for it and no cell of it in the draft, is
accepted with a YIELD queued; otherwise it is refused BAD_ARG, WRONG_STATE, NOT_HOLDER, ALREADY, DRAFT_OPEN or NO_TICKET,
in that order (R46, R182). -/
def Obligations.ReleaseAccepted : Prop :=
  ∀ (s : State) (b : Byte), InHand 0x13 [b] s →
    (16 ≤ b.toNat → exec .release s = .next (answered .badArg [] s))
      ∧ ∀ r : Region, b.toNat = r.val →
        let holds := s.locks[r].holder = some s.straps.number
        let live := ∃ k t, s.port.tickets[(k : TicketNo)] = some t ∧ (t.kind = .release ∨ t.kind = .withdraw)
          ∧ t.arg = .region r ∧ t.state ≠ .done
        let staged := ∃ e ∈ s.bundle.draft, regionOf e.cell = r
        (∀ k, s.mship.state = .member → holds → ¬ live → ¬ staged → Issuable k s.port →
            exec .release s = .next (accepted k .release (.region r) none (.yield r) s))
          ∧ (s.mship.state ≠ .member → exec .release s = .next (answered .wrongState [] s))
          ∧ (s.mship.state = .member → ¬ holds → exec .release s = .next (answered .notHolder [] s))
          ∧ (s.mship.state = .member → holds → live → exec .release s = .next (answered .already [] s))
          ∧ (s.mship.state = .member → holds → ¬ live → staged → exec .release s = .next (answered .draftOpen [] s))
          ∧ (s.mship.state = .member → holds → ¬ live → ¬ staged → (∀ k, ¬ Issuable k s.port) →
            exec .release s = .next (answered .noTicket [] s))

/-- WITHDRAW of a live claim that is SENDING or WAITING is accepted with a YIELD queued under a ticket linked to the
CLAIM's; of a claim still QUEUED it removes the CLAIM from the send list, completes the CLAIM WITHDRAWN and answers OK
with no ticket; otherwise it is refused BAD_ARG, WRONG_STATE, NOT_WAITING, ALREADY or NO_TICKET, in that order (R48,
R49). -/
def Obligations.WithdrawGivesUpClaim : Prop :=
  ∀ (s : State) (b : Byte), InHand 0x14 [b] s →
    (16 ≤ b.toNat → exec .withdraw s = .next (answered .badArg [] s))
      ∧ ∀ r : Region, b.toNat = r.val →
        let withdrawing := ∃ j u, s.port.tickets[(j : TicketNo)] = some u ∧ u.kind = .withdraw ∧ u.arg = .region r
          ∧ u.state ≠ .done
        (s.mship.state ≠ .member → exec .withdraw s = .next (answered .wrongState [] s))
          ∧ (s.mship.state = .member →
            (∀ j u, s.port.tickets[(j : TicketNo)] = some u → u.kind = .claim → u.arg = .region r → u.state = .done) →
            exec .withdraw s = .next (answered .notWaiting [] s))
          ∧ ∀ c t, s.mship.state = .member → SoleLive c t s.port → t.kind = .claim → t.arg = .region r →
            (withdrawing → exec .withdraw s = .next (answered .already [] s))
              ∧ (¬ withdrawing → t.state = .queued → exec .withdraw s = .next (answered .ok [] { s with
                port := completed c t .withdrawn s.port
                tx := { s.tx with sendList := s.tx.sendList.filter fun e => decide (e.ticket ≠ some c) } }))
              ∧ (¬ withdrawing → t.state ≠ .queued → ∀ k, Issuable k s.port →
                exec .withdraw s = .next (accepted k .withdraw (.region r) (some c) (.yield r) s))
              ∧ (¬ withdrawing → t.state ≠ .queued → (∀ k, ¬ Issuable k s.port) →
                exec .withdraw s = .next (answered .noTicket [] s))

/-- COMMIT of a draft with a cell, the outgoing bundle buffer empty, moves the draft's entries in order into the buffer
with fragment index 0, empties the draft and is accepted; otherwise it is refused WRONG_STATE, EMPTY, BUNDLE_PENDING or
NO_TICKET, in that order (R60, R182). -/
def Obligations.CommitMovesDraft : Prop :=
  ∀ s : State, InHand 0x15 [] s →
    (∀ k, s.mship.state = .member → s.bundle.draft ≠ [] → s.bundle.outgoing = none → Issuable k s.port →
        exec .commit s = .next (accepted k .commit .none none .commit { s with bundle :=
          { draft := [], outgoing := some { entries := s.bundle.draft, ticket := k, next := 0 } } }))
      ∧ (s.mship.state ≠ .member → exec .commit s = .next (answered .wrongState [] s))
      ∧ (s.mship.state = .member → s.bundle.draft = [] → exec .commit s = .next (answered .empty [] s))
      ∧ (s.mship.state = .member → s.bundle.draft ≠ [] → s.bundle.outgoing ≠ none →
        exec .commit s = .next (answered .bundlePending [] s))
      ∧ (s.mship.state = .member → s.bundle.draft ≠ [] → s.bundle.outgoing = none → (∀ k, ¬ Issuable k s.port) →
        exec .commit s = .next (answered .noTicket [] s))

/-- SIGNAL of 1 to 8 bytes to all, or to another station that is MEMBER, is accepted at a MEMBER with the target and
bytes queued. A byte count of 0 or above 8, and a target byte that is this station's own number or none of 00h to 0Fh and
FFh, is refused BAD_ARG; then a station state but MEMBER WRONG_STATE, a target that is not MEMBER NO_TARGET, and a port
without a ticket to issue NO_TICKET (R130, R182). -/
def Obligations.SignalAccepted : Prop :=
  ∀ (s : State) (b : Byte) (bytes : List Byte), InHand 0x16 (b :: bytes) s →
    let good := (1 ≤ bytes.length ∧ bytes.length ≤ 8) ∧ (b = 0xFF ∨ (b.toNat < 16 ∧ b.toNat ≠ s.straps.number.val))
    let aimed := ∀ x : Station, b.toNat = x.val → s.mship.table[x].state = .member
    (¬ good → exec .signal s = .next (answered .badArg [] s))
      ∧ (good → s.mship.state ≠ .member → exec .signal s = .next (answered .wrongState [] s))
      ∧ (good → s.mship.state = .member → ¬ aimed → exec .signal s = .next (answered .noTarget [] s))
      ∧ (good → s.mship.state = .member → aimed → (∀ k, ¬ Issuable k s.port) →
        exec .signal s = .next (answered .noTicket [] s))
      ∧ (∀ k, good → s.mship.state = .member → b = 0xFF → Issuable k s.port →
        exec .signal s = .next (accepted k .signal (.target none) none (.signal none bytes) s))
      ∧ ∀ (k : TicketNo) (x : Station), good → s.mship.state = .member → b.toNat = x.val →
        s.mship.table[x].state = .member → Issuable k s.port →
        exec .signal s = .next (accepted k .signal (.target (some x)) none (.signal (some x) bytes) s)

/-- LEAVE at a MEMBER with a ticket to issue: the draft and the outgoing bundle buffer are emptied, the send list holds
the LEAVE alone, every QUEUED ticket is DONE with a CANCELLED completion, the station is LEAVING with its silence and
presence timers stopped; cells, tables, service queue and mend state stand. In another station state it is refused
WRONG_STATE, without a ticket NO_TICKET (R73, R86, R91, R92, R128). -/
def Obligations.LeaveAccepted : Prop :=
  ∀ (s : State), InHand 0x11 [] s →
    (s.mship.state ≠ .member → exec .leave s = .next (answered .wrongState [] s))
      ∧ (s.mship.state = .member → (∀ k, ¬ Issuable k s.port) → exec .leave s = .next (answered .noTicket [] s))
      ∧ ∀ k, s.mship.state = .member → Issuable k s.port → PortLaw s →
        ∃ t, exec .leave s = .next t
          ∧ t.mship = { s.mship with
              state := .leaving, silence := Vector.replicate 16 none, presence := none }
          ∧ t.bundle = { draft := [], outgoing := none }
          ∧ t.tx.sendList = [{ ticket := some k, frame := .leave }]
          ∧ t.port.phase = .holding { code := .accepted, body := [BitVec.ofNat 8 k.val] }
          ∧ t.port.tickets[k] = some { kind := .leave, state := .queued, arg := .none, link := none }
          ∧ (∀ j u, s.port.tickets[(j : TicketNo)] = some u → u.state = .queued →
              t.port.tickets[j] = some { u with state := .done } ∧ .completion j u.kind .cancelled ∈ t.port.notices)
          ∧ t.port.order = s.port.order ++ [k]
          ∧ s.port.notices <+: t.port.notices
          ∧ t.tx.drops = s.tx.drops ∧ t.tx.replies = s.tx.replies ∧ t.tx.mend = s.tx.mend
          ∧ t.tx.presence = s.tx.presence
          ∧ t.mem = s.mem ∧ t.cells = s.cells ∧ t.apply = s.apply ∧ t.locks = s.locks ∧ t.sponsor = s.sponsor
          ∧ t.mend = s.mend ∧ t.bus = s.bus ∧ t.access = s.access ∧ t.straps = s.straps ∧ t.pending = s.pending

/-! ### Carrier, turns and transmission starts -/

/-- A driven level of half a bit time or more on the idle bus begins carrier: RECEIVING, buffer and record emptied, the
start mark seen when an idle slot went before a run of 7 to 9 bit times; a shorter pulse begins nothing. Nothing else
changes, the gap count standing where it stopped (R140, R144, R145, R158). -/
def Obligations.CarrierBeginsOnIdleBus : Prop :=
  ∀ (s : State) (halfBits : Nat) (idleSlot : Bool), NoneInHand s → s.bus.state = .idle →
    (1 ≤ halfBits → exec (.carrierBegin halfBits idleSlot) s = .next { s with bus := { s.bus with
        state := .receiving, buffer := []
        record := { startMark := decide (idleSlot = true ∧ 14 ≤ halfBits ∧ halfBits ≤ 18), framed := 0
                    unframed := false, header := .notMade } } })
      ∧ (halfBits = 0 → exec (.carrierBegin halfBits idleSlot) s = .next s)

/-- The turn position and the turn gap: with L set, (n - L - 1) mod 16; with L unset, n; the gap 6 + 2p, from 6 to 36
slots. Stations that agree on L have distinct positions and gaps; the reference sender itself has position 15 and the
longest gap, the station numbered next above it position 0 and the shortest; with L unset the lowest-numbered station
comes first; stations that disagree on L can compute equal gaps. A station's turn gap is that of its reference sender as
it stands; a collision, whose frame is damaged at its sender and at a station that took no part, leaves the turn by station
number at either. The rule's table stands at the end (R157). -/
def Obligations.TurnPositionRotates : Prop :=
  (∀ n l : Station, turnPosition n (some l) < 16 ∧ (turnPosition n (some l) + l.val + 1) % 16 = n.val)
    ∧ (∀ n : Station, turnPosition n none = n.val)
    ∧ (∀ (n : Station) (l : Option Station), turnGap n l = 6 + 2 * turnPosition n l
        ∧ 6 ≤ turnGap n l ∧ turnGap n l ≤ 36)
    ∧ (∀ (n m : Station) (l : Option Station), n ≠ m →
        turnPosition n l ≠ turnPosition m l ∧ turnGap n l ≠ turnGap m l)
    ∧ (∀ l n : Station, turnPosition l (some l) = 15 ∧ turnPosition (l + 1) (some l) = 0
        ∧ turnGap n (some l) ≤ turnGap l (some l) ∧ turnGap (l + 1) (some l) ≤ turnGap n (some l))
    ∧ (∀ n m : Station, n < m → turnGap n none < turnGap m none)
    ∧ (∃ (n m : Station) (k l : Option Station), n ≠ m ∧ k ≠ l ∧ turnGap n k = turnGap m l)
    ∧ (∀ s : State, gapSlots .turn s = turnGap s.straps.number s.access.reference)
    ∧ (∀ (s t : State) (mark : Bool) (h : Heard), Running s → (∀ f, classify s.straps.number mark h ≠ .good f) →
        ((s.bus.state = .sending ∧ exec (.collision mark h) s = .next t)
          ∨ (CarrierOver mark s ∧ exec (.damagedFrame h) s = .next t)) →
        gapSlots .turn t = 6 + 2 * s.straps.number.val)
    ∧ ∀ row ∈ [((2 : Station), 12, 30, 2, 10), (5, 15, 36, 5, 16), (9, 3, 12, 9, 24), (13, 7, 20, 13, 32)],
        turnPosition row.1 (some 5) = row.2.1 ∧ turnGap row.1 (some 5) = row.2.2.1
          ∧ turnPosition row.1 none = row.2.2.2.1 ∧ turnGap row.1 none = row.2.2.2.2

/-- With the slot empty, no settlement DROP queued and no bundle in progress, what goes at a turn starts at the first moment
that brings the gap count to the turn gap, in this order: of the service queue the oldest turn DROP, else the oldest MENDREPLY,
its cell read and verified then, else the MEND, else the PRESENCE; and with none of these the snapshot's next frame or the host
list's head, the source that was not last where both have work. The SNAPSTATE, and after it the SNAPCELLS of groups 0 to 31,
goes to the head of the sponsor list and advances the cursor by one. From the host list a CLAIM, YIELD, LEAVE or SIGNAL is
built with the counter's sequence and the required set of the table, moves into the slot and makes its ticket SENDING. In
JOIN_SENT the JOIN goes with the departed mark as its rejoin flag, in AWAIT_STATE and FILLING the PRESENCE. The presence timer
restarts and SENDING begins; a PRESENCE whose timer runs out while nothing else is offered starts then, or when the turn gap
has passed. A slot of an empty queue that begins or brings nearer a transmission agrees with the TRANSMISSION_START that
carries it (R79, R92, R102 to R104, R120, R122, R157 to R159, R162 to R167). The model's choices: the command carries slots
and starts at the first moment within them (log 6); a slot passes on an empty queue (log 4); an ABSENT or STALE cell, not
reached by R4, is read as no good copy into a SNAPCELLS or a MENDREPLY (log 20). -/
def Obligations.StartsTurnFrame : Prop :=
  (∀ (s : State) (slots k : Nat), MayStart s → s.tx.slot = none → (∀ d ∈ s.tx.drops, d.cls = .turn) →
    (∀ b, s.bundle.outgoing = some b → b.next = 0) →
    FirstMoment (turnGap s.straps.number s.access.reference) slots k s →
    let groupSender := s.mship.state = .member ∨ s.mship.state = .leaving
    let noService := s.tx.drops = [] ∧ s.tx.replies = [] ∧ s.tx.mend = none ∧ s.tx.presence = false
    (∀ (e : SendEntry) (rest : List SendEntry) (q : TicketNo) (tk : Ticket) (body : Body),
        groupSender → noService → s.sponsor.joiners = [] →
        s.tx.sendList = e :: rest → e.ticket = some q → s.port.tickets[q] = some tk → tk.state ≠ .done →
        ((∃ r, e.frame = .claim r ∧ body = .claim r) ∨ (∃ r, e.frame = .yield r ∧ body = .yield r)
          ∨ (e.frame = .leave ∧ body = .leave) ∨ (∃ t bs, e.frame = .signal t bs ∧ body = .signal t bs)) →
        ∃ t sl, exec (.transmissionStart slots) s = .next t
          ∧ t.tx = { s.tx with sendList := rest, slot := some sl, seq := s.tx.seq + 1, lastSource := .hostList }
          ∧ sl.frame = { head := { sender := s.straps.number, repeated := false, seq := s.tx.seq }, body := body }
          ∧ (∀ x : Station, flag sl.required x = decide (x ≠ s.straps.number ∧ s.mship.table[x].state ≠ .absent))
          ∧ sl.repeats = 0 ∧ sl.heard = false ∧ sl.ticket = some q
          ∧ (∀ x bs, body = .signal (some x) bs → sl.targetIn = flag sl.required x)
          ∧ t.port = { s.port with tickets := s.port.tickets.set q.val (some { tk with state := .sending }) }
          ∧ t.bus = { s.bus with state := .sending, buffer := [], record := ReceiveRecord.empty }
          ∧ t.access.gapCount = s.access.gapCount + k ∧ t.access.reference = s.access.reference
          ∧ t.mship.presence = s.mship.presence.map (fun _ => 4096) ∧ t.mship.state = s.mship.state
          ∧ t.mship.table = s.mship.table
          ∧ t.mem = s.mem ∧ t.cells = s.cells ∧ t.apply = s.apply ∧ t.locks = s.locks ∧ t.sponsor = s.sponsor
          ∧ t.bundle = s.bundle ∧ t.mend.cells = s.mend.cells ∧ t.straps = s.straps ∧ t.pending = s.pending)
      ∧ (∀ d rest, groupSender → s.tx.drops = d :: rest →
        StartsNew slots k (.drop d.target d.reason) none .turn s { s.tx with drops := rest } s.sponsor s.port)
      ∧ (∀ r rest, groupSender → s.tx.drops = [] → s.tx.replies = r :: rest →
        StartsNew slots k (.mendReply r.requester r.cell .noCopy) none .turn s { s.tx with replies := rest } s.sponsor s.port)
      ∧ (∀ m, groupSender → s.tx.drops = [] → s.tx.replies = [] → s.tx.mend = some m →
        StartsNew slots k (.mend m.responder m.cell) none .turn s { s.tx with mend := none } s.sponsor s.port)
      ∧ (isHolder s.mship.state = true ∨ s.mship.state = .awaitState →
        s.tx.drops = [] → s.tx.replies = [] → s.tx.mend = none → s.tx.presence = true →
        StartsNew slots k .presence none .turn s { s.tx with presence := false } s.sponsor s.port)
      ∧ (∀ j rest body, groupSender → noService → s.sponsor.joiners = j :: rest →
        (s.tx.sendList = [] ∨ s.tx.lastSource = .hostList) →
        ((s.sponsor.cursor = 0 ∧ ∃ im, body = .snapState j im)
          ∨ ∃ (g : Group) (rs : Vector SnapRecord 8), s.sponsor.cursor = g.val + 1 ∧ body = .snapCells j g rs) →
        StartsNew slots k body none .turn s { s.tx with lastSource := .snapshot }
          { s.sponsor with cursor := s.sponsor.cursor + 1 } s.port)
      ∧ (∀ j js e rest q tk r, groupSender → noService → s.sponsor.joiners = j :: js →
        (s.sponsor.cursor = 33 ∨ s.tx.lastSource = .snapshot) →
        s.tx.sendList = e :: rest → e = { ticket := some q, frame := .claim r } → s.port.tickets[(q : TicketNo)] = some tk →
        tk.state ≠ .done →
        StartsNew slots k (.claim r) (some q) .turn s { s.tx with sendList := rest, lastSource := .hostList } s.sponsor
          { s.port with tickets := s.port.tickets.set q.val (some { tk with state := .sending }) })
      ∧ (s.mship.state = .joinSent → noService → s.sponsor.joiners = [] →
        (∀ q tk, s.tx.sendList = [{ ticket := some q, frame := .join }] → s.port.tickets[(q : TicketNo)] = some tk →
          tk.state ≠ .done →
          StartsNew slots k (.join s.mship.departed) (some q) .turn s { s.tx with sendList := [], lastSource := .hostList }
            s.sponsor { s.port with tickets := s.port.tickets.set q.val (some { tk with state := .sending }) })
        ∧ (s.tx.sendList = [{ ticket := none, frame := .join }] →
          StartsNew slots k (.join s.mship.departed) none .turn s { s.tx with sendList := [], lastSource := .hostList }
            s.sponsor s.port)))
    ∧ (∀ (s : State) (slots k v : Nat), MayStart s → (isHolder s.mship.state = true ∨ s.mship.state = .awaitState) →
      s.tx.slot = none → s.tx.drops = [] → s.tx.replies = [] → s.tx.mend = none → s.tx.presence = false →
      s.tx.sendList = [] → s.sponsor.joiners = [] → (∀ b, s.bundle.outgoing = some b → b.next = 0) →
      s.mship.presence = some v → 1 ≤ v →
      k = max v (turnGap s.straps.number s.access.reference - s.access.gapCount) → k ≤ slots →
      NoneRunsOut k { s with mship := { s.mship with presence := none } } →
      StartsNew slots k .presence none .turn s s.tx s.sponsor s.port)
    ∧ ∀ (s t : State) (slots : Nat), NoneInHand s → s.pending = [] → s.bus.state = .idle → step s = .next t →
      (t.bus.state = .sending → exec (.transmissionStart (slots + 1)) s = .next t)
        ∧ (∀ u, t.bus.state = .idle → t.tx.sendList = s.tx.sendList → exec (.transmissionStart slots) t = .next u →
          u.bus.state = .sending → exec (.transmissionStart (slots + 1)) s = .next u)

/-- The head of the host send list being a COMMIT, its first fragment is built: the first eight cells of the bundle in
order, each with the successor of its own PRESENT cell's version or 0 for a DAMAGED one, read without verification; more
flag, fragment count and index as the bundle's length gives. With fragment i of a bundle due, i from 1 on, it starts at the
first moment that brings the gap count to the follow-on gap of 4 slots, ahead of everything else queued but a settlement DROP:
the eight cells from 8i on, its sequence from the counter, no list and no ticket changed (R61 to R63, R158, R159, R165, R166).
That the command carries slots and starts at the first moment within them is log 6's form. -/
def Obligations.StartsFirstFragment : Prop :=
  (∀ (s : State) (slots k : Nat) (rest : List SendEntry) (b : Outgoing) (tk : Ticket),
    MayStart s → s.mship.state = .member →
    s.tx.slot = none → s.tx.drops = [] → s.tx.replies = [] → s.tx.mend = none → s.tx.presence = false →
    s.sponsor.joiners = [] → s.bundle.outgoing = some b → b.next = 0 → b.entries ≠ [] →
    s.tx.sendList = { ticket := some b.ticket, frame := .commit } :: rest →
    s.port.tickets[b.ticket] = some tk → tk.state ≠ .done →
    FirstMoment (turnGap s.straps.number s.access.reference) slots k s →
    ∃ t sl w, exec (.transmissionStart slots) s = .next t
      ∧ t.tx = { s.tx with sendList := rest, slot := some sl, seq := s.tx.seq + 1, lastSource := .hostList }
      ∧ sl.frame = { head := { sender := s.straps.number, repeated := false, seq := s.tx.seq }, body := .write w }
      ∧ w.index = 0 ∧ w.count = (b.entries.length + 7) / 8 ∧ (w.more = true ↔ 8 < b.entries.length)
      ∧ w.records.map (fun r => (r.cell, r.data)) = (b.entries.take 8).map (fun e => (e.cell, e.data))
      ∧ (∀ r ∈ w.records, (s.cells[r.cell].status = .present → r.version = succVersion s.cells[r.cell].version)
          ∧ (s.cells[r.cell].status = .damaged → r.version = 0))
      ∧ t.port = { s.port with tickets := s.port.tickets.set b.ticket.val (some { tk with state := .sending }) }
      ∧ t.mem = s.mem ∧ t.cells = s.cells ∧ t.apply = s.apply ∧ t.locks = s.locks ∧ t.bundle = s.bundle
      ∧ t.mend.cells = s.mend.cells ∧ t.mship.table = s.mship.table ∧ t.sponsor = s.sponsor
      ∧ t.bus = { s.bus with state := .sending, buffer := [], record := ReceiveRecord.empty }
      ∧ t.access.gapCount = s.access.gapCount + k ∧ t.mship.presence = s.mship.presence.map (fun _ => 4096))
  ∧ ∀ (s : State) (slots k : Nat) (b : Outgoing) (w : WriteBody),
    MayStart s → (s.mship.state = .member ∨ s.mship.state = .leaving) → s.tx.slot = none →
    (∀ d ∈ s.tx.drops, d.cls = .turn) → s.bundle.outgoing = some b → 1 ≤ b.next →
    w.index = b.next → w.count = (b.entries.length + 7) / 8 → w.index < w.count → (w.more = true ↔ w.index + 1 < w.count) →
    w.records.map (fun r => (r.cell, r.data)) = ((b.entries.drop (8 * b.next)).take 8).map (fun e => (e.cell, e.data)) →
    FirstMoment 4 slots k s →
    StartsNew slots k (.write w) none .followOn s s.tx s.sponsor s.port

/-- A frame in the slot that has been heard is repeated at the repeat gap, whatever else is queued, as it was built but
with the repeat flag set; the sequence counter, the required set and the tables stand. A frame in the slot that no station has
heard, its transmissions having collided, is built again at the gap of its kind: its header, kind, target and repeats stand,
its required set and all that it reads from this station's own tables and cells are taken afresh, and no counter, cursor, list
or ticket moves. Both hold at a MEMBER or LEAVING station of every frame, in JOIN_SENT of the JOIN, in AWAIT_STATE and FILLING
of the PRESENCE. With the slot empty the oldest settlement DROP of a MEMBER or LEAVING station starts at the repeat gap too,
whatever else is queued (R76, R102, R158 to R160, R164 to R167). The model's choices: the command carries slots and starts at
the first moment within them (log 6); an ABSENT or STALE cell, not reached by R4, is read as no good copy into a SNAPCELLS or a
MENDREPLY (log 20). -/
def Obligations.StartsRepeat : Prop :=
  ∀ (s : State) (slots k : Nat), MayStart s →
    let groupSender := s.mship.state = .member ∨ s.mship.state = .leaving
    let sendable := fun b : Body => groupSender ∨ (s.mship.state = .joinSent ∧ ∃ r, b = .join r)
      ∨ ((s.mship.state = .awaitState ∨ s.mship.state = .filling) ∧ b = .presence)
    (∀ sl : Slot, s.tx.slot = some sl → sendable sl.frame.body → sl.heard = true → sl.gap = .repeatGap →
      FirstMoment 2 slots k s →
      ∃ t, exec (.transmissionStart slots) s = .next t
        ∧ t.tx = { s.tx with slot := some { sl with
            frame := { sl.frame with head := { sl.frame.head with repeated := true } } } }
        ∧ t.bus = { s.bus with state := .sending, buffer := [], record := ReceiveRecord.empty }
        ∧ t.mship.presence = s.mship.presence.map (fun _ => 4096) ∧ t.mship.table = s.mship.table
        ∧ t.access.gapCount = s.access.gapCount + k
        ∧ t.mem = s.mem ∧ t.cells = s.cells ∧ t.apply = s.apply ∧ t.locks = s.locks ∧ t.sponsor = s.sponsor
        ∧ t.bundle = s.bundle ∧ t.port = s.port ∧ t.straps = s.straps ∧ t.pending = s.pending)
      ∧ (∀ before d after, groupSender → s.tx.slot = none → s.tx.drops = before ++ d :: after →
        (∀ e ∈ before, e.cls = .turn) → d.cls = .settlement → FirstMoment 2 slots k s →
        StartsNew slots k (.drop d.target d.reason) none .repeatGap s { s.tx with drops := before ++ after } s.sponsor
          s.port)
      ∧ (∀ sl : Slot, s.tx.slot = some sl → sendable sl.frame.body → sl.heard = false →
        FirstMoment (gapSlots sl.gap s) slots k s →
        ∃ t sl', exec (.transmissionStart slots) s = .next t
          ∧ ReadFrom s sl.frame.body sl'.frame.body ∧ RequiredFor sl.frame.body s sl'.required
          ∧ (∀ x bytes, sl.frame.body = .signal (some x) bytes → sl'.targetIn = flag sl'.required x)
          ∧ sl'.frame.head = sl.frame.head
          ∧ { sl' with frame := sl.frame, required := sl.required, targetIn := sl.targetIn } = sl
          ∧ BuildReads sl.frame.body { begun k s with tx := { s.tx with slot := some sl' } } t)

/-! ### Frames of peers -/

/-- A PRESENCE that is applied leaves what every applied frame of a peer leaves (its sequence recorded, the silence
timer of its sender restarted, the position to be driven) and changes nothing else (R20, R22, R24, R66, R91, R92). -/
def Obligations.PresenceRecordsSender : Prop :=
  ∀ (s : State) (h : FrameHead), let f : Frame := { head := h, body := .presence }
    Applies s f → exec (.presenceFrame h) s = .next (taken f s)

/-- A CLAIM that is applied at a peer: from a MEMBER it makes its sender holder of a free region, leaves the entry as it
is for a holder or waiter, and else puts the sender at the queue's tail; from a JOINING sender it has no lock effect.
Nothing changes but that one entry and what every applied frame leaves (R38). -/
def Obligations.ClaimTakesRegionOrWaits : Prop :=
  ∀ (s : State) (h : FrameHead) (r : Region), let f : Frame := { head := h, body := .claim r }
    Applies s f →
    let e := s.locks[r]
    (s.mship.table[h.sender].state = .member → e.holder = none → exec (.claimFrame h r) s =
        .next { taken f s with locks := s.locks.set r.val { e with holder := some h.sender } })
      ∧ (s.mship.table[h.sender].state = .member → e.holder = some h.sender ∨ e.holder ≠ none ∧ h.sender ∈ e.waiters →
        exec (.claimFrame h r) s = .next (taken f s))
      ∧ (s.mship.table[h.sender].state = .member → ∀ y, e.holder = some y → y ≠ h.sender → h.sender ∉ e.waiters →
        exec (.claimFrame h r) s =
          .next { taken f s with locks := s.locks.set r.val { e with waiters := e.waiters ++ [h.sender] } })
      ∧ (s.mship.table[h.sender].state = .joining → exec (.claimFrame h r) s = .next (taken f s))

/-- A YIELD that is applied at a peer: from the holder the region passes to the head of the queue or becomes free, a
waiter leaves the queue with the others in their order, and from any other station nothing changes; when this station
becomes holder, its live CLAIM ticket for the region completes GRANTED in the same application (R40, R41). -/
def Obligations.YieldPassesRegion : Prop :=
  ∀ (s : State) (h : FrameHead) (r : Region), let f : Frame := { head := h, body := .yield r }
    Applies s f →
    let e := s.locks[r]
    (e.holder = some h.sender → e.waiters = [] → exec (.yieldFrame h r) s =
        .next { taken f s with locks := s.locks.set r.val { holder := none, waiters := [] } })
      ∧ (∀ w ws, e.holder = some h.sender → e.waiters = w :: ws → w ≠ s.straps.number →
        exec (.yieldFrame h r) s =
          .next { taken f s with locks := s.locks.set r.val { holder := some w, waiters := ws } })
      ∧ (∀ ws k t, e.holder = some h.sender → e.waiters = s.straps.number :: ws → SoleLive k t s.port →
        t.kind = .claim → t.arg = .region r → exec (.yieldFrame h r) s =
          .next { taken f s with
            locks := s.locks.set r.val { holder := some s.straps.number, waiters := ws }
            port := completed k t .granted s.port })
      ∧ (e.holder ≠ some h.sender → exec (.yieldFrame h r) s =
        .next { taken f s with
          locks := s.locks.set r.val { e with waiters := e.waiters.filter fun w => decide (w ≠ h.sender) } })

/-- This station's own frames at the carrier end of their first good echo, its own sequence recorded, the reference sender
this station, the collision count 0, its position not driven. A CLAIM of a free region at a MEMBER makes it holder and
completes its CLAIM ticket GRANTED; of a region held by another it puts this station at the queue's tail, the ticket left to
the settlement. A RELEASE's YIELD passes the region on and completes DONE; a WITHDRAW's completes RELEASED at a holder, and
at a waiter completes the CLAIM WITHDRAWN and then itself DONE. The last fragment of a bundle, this station holding every
region, writes it and completes the COMMIT APPLIED, with the buffer emptied; without a region it writes nothing and completes
it REFUSED. A LEAVE takes this station out of every region and out of its own table, hands its joiners on, empties its
sponsor list and posts nothing, the station staying LEAVING. A SNAPCELLS of group 31 makes the head MEMBER, takes it from the
sponsor list with the cursor at 0 and posts MEMBER_IN (R27, R38 to R43, R47, R50, R64, R68 to R70, R88, R101, R148, R156,
R160). -/
def Obligations.OwnClaimGranted : Prop :=
  (∀ (s : State) (sl : Slot) (r : Region) (k : TicketNo) (tk : Ticket),
    NoneInHand s → s.bus.state = .sending → s.tx.slot = some sl → sl.heard = false → s.mship.state = .member →
    sl.frame.body = .claim r → sl.frame.head.sender = s.straps.number → s.apply.doubt = .clear →
    s.apply.staging = none → s.mship.table[s.straps.number].state = .member →
    s.locks[r].holder = none → SoleLive k tk s.port → tk.kind = .claim → tk.arg = .region r →
    exec (.claimFrame sl.frame.head r) s = .next { s with
      locks := s.locks.set r.val { s.locks[r] with holder := some s.straps.number }
      port := completed k tk .granted s.port
      bus := busAfterOwn sl.frame s.bus
      access := { s.access with reference := some s.straps.number, collisions := 0 }
      mship := { s.mship with
        table := s.mship.table.set s.straps.number.val
          { s.mship.table[s.straps.number] with lastSeq := sl.frame.head.seq }
        listening := true
        listen := none }
      tx := { s.tx with slot := some { sl with heard := true, gap := .repeatGap } } })
  ∧ ∀ (s : State) (sl : Slot), OwnEcho sl s →
    let n := s.straps.number
    let done := ownTaken sl s
    (NoOwnStaging s → s.mship.table[n].state = .member →
      (∀ r, sl.frame.body = .claim r → s.locks[(r : Region)].holder ≠ none → s.locks[r].holder ≠ some n →
        n ∉ s.locks[r].waiters → exec (.claimFrame sl.frame.head r) s = .next { done with
          locks := s.locks.set r.val { s.locks[r] with waiters := s.locks[r].waiters ++ [n] } })
      ∧ (∀ r k tk, sl.frame.body = .yield r → sl.ticket = some k → s.port.tickets[k] = some tk → tk.state ≠ .done →
        let passed : State := { done with locks := s.locks.set r.val (yieldEntry n s.locks[(r : Region)]) }
        (tk.kind = .release → exec (.yieldFrame sl.frame.head r) s =
            .next { passed with port := completed k tk .done s.port })
        ∧ (tk.kind = .withdraw → s.locks[r].holder = some n → exec (.yieldFrame sl.frame.head r) s =
            .next { passed with port := completed k tk .released s.port })
        ∧ (∀ j u, tk.kind = .withdraw → s.locks[r].holder ≠ some n → SoleLive j u s.port → u.kind = .claim →
            u.arg = .region r → exec (.yieldFrame sl.frame.head r) s =
              .next { passed with port := completed k tk .done (completed j u .withdrawn s.port) }))
      ∧ (sl.frame.body = .leave → GroupLaw s → s.mship.state = .leaving → ∃ t, exec (.leaveFrame sl.frame.head) s = .next t
        ∧ (∀ r : Region, t.locks[r] = yieldEntry n s.locks[r])
        ∧ t.mship.table[n] = { state := .absent, lastSeq := 0, sponsor := none, joinPlace := none }
        ∧ (∀ y : Station, y ≠ n → (s.mship.table[y].state = .member → t.mship.table[y] = s.mship.table[y])
            ∧ t.mship.table[y].sponsor ≠ some n)
        ∧ ((∃ z, z ≠ n ∧ s.mship.table[(z : Station)].state = .member) →
            ∀ y : Station, y ≠ n → t.mship.table[y].state = s.mship.table[y].state)
        ∧ ((∀ z, z ≠ n → s.mship.table[(z : Station)].state ≠ .member) → ∀ y : Station, t.mship.table[y].state = .absent)
        ∧ t.sponsor = { joiners := [], cursor := 0 } ∧ t.port = s.port ∧ t.mship.state = .leaving
        ∧ t.bus = done.bus ∧ t.access = done.access ∧ t.tx = done.tx ∧ t.mem = s.mem ∧ t.cells = s.cells
        ∧ t.bundle = s.bundle ∧ t.mend = s.mend ∧ t.apply.staging = none ∧ t.apply.doubt = .clear)
      ∧ (∀ x recs rest, sl.frame.body = .snapCells x 31 recs → GroupLaw s → s.sponsor.joiners = x :: rest →
        ∃ t, exec (.snapCellsFrame sl.frame.head x 31 recs) s = .next t
          ∧ t.mship.table[x].state = .member ∧ t.mship.table[x].sponsor = none ∧ t.mship.table[x].joinPlace = none
          ∧ (∀ y : Station, y ≠ x → t.mship.table[y].state = s.mship.table[y].state
            ∧ t.mship.table[y].sponsor = s.mship.table[y].sponsor)
          ∧ t.sponsor = { joiners := rest, cursor := 0 }
          ∧ (s.port.notices.length + reserved s.port < 32 →
            t.port = { s.port with notices := s.port.notices ++ [.memberIn x] })
          ∧ (32 ≤ s.port.notices.length + reserved s.port → t.port = { s.port with noticesDropped := true })
          ∧ t.mship.state = s.mship.state ∧ t.mship.silence = s.mship.silence ∧ t.bus = done.bus
          ∧ t.access = done.access ∧ t.tx = done.tx ∧ t.mem = s.mem ∧ t.cells = s.cells ∧ t.locks = s.locks
          ∧ t.bundle = s.bundle ∧ t.mend = s.mend))
    ∧ ∀ (w : WriteBody) (recs : List WriteRecord) (b : Outgoing) (tk : Ticket),
      sl.frame.body = .write w → w.index + 1 = w.count →
      ((w.index = 0 ∧ NoOwnStaging s ∧ recs = w.records)
        ∨ ∃ st, s.apply.staging = some st ∧ st.sender = n ∧ w.index = st.expected ∧ w.count = st.count
          ∧ recs = st.records ++ w.records) →
      s.bundle.outgoing = some b → s.port.tickets[b.ticket] = some tk → tk.state ≠ .done →
      let after : State := { done with
        apply := { done.apply with staging := none }, bundle := { s.bundle with outgoing := none } }
      ((∃ r ∈ recs, s.locks[regionOf r.cell].holder ≠ some n) → exec (.writeFrame sl.frame.head w) s =
          .next { after with port := completed b.ticket tk .refused s.port })
      ∧ ((∀ r ∈ recs, s.locks[regionOf r.cell].holder = some n
            ∧ (s.cells[r.cell].status = .damaged ∨ (s.cells[r.cell].status = .present
              ∧ (r.version = 0 ∨ r.version = succVersion s.cells[r.cell].version)))) →
          StoreLaw s → (recs.map (·.cell)).Nodup → s.mend.cells.Nodup →
          ∃ t, exec (.writeFrame sl.frame.head w) s = .next t
            ∧ (∀ r ∈ recs, cellData t.mem r.cell = r.data
                ∧ t.cells[r.cell] = { version := r.version, check := cellCheck r.version r.data, status := .present
                                      fresh := s.cells[r.cell].fresh, upset := false })
            ∧ (∀ c : CellIx, (∀ r ∈ recs, r.cell ≠ c) → cellData t.mem c = cellData s.mem c ∧ t.cells[c] = s.cells[c])
            ∧ t.port.tickets = s.port.tickets.set b.ticket.val (some { tk with state := .done })
            ∧ s.port.notices ++ [.completion b.ticket tk.kind .applied] <+: t.port.notices
            ∧ (∀ r ∈ recs, r.cell ∉ t.mend.cells)
            ∧ { t.tx with mend := s.tx.mend } = after.tx
            ∧ { t with mem := s.mem, cells := s.cells, port := s.port, mend := s.mend, tx := after.tx } = after)

/-- A JOIN of another station that a table holder takes, by the entry of its sender. ABSENT: it becomes JOINING with the
JOIN's sequence as baseline, the lowest-numbered MEMBER as sponsor and the tail of the join order; at a MEMBER its silence
timer starts; when this station is the sponsor the joiner joins its list's tail; no lock, cell, notice or ticket changes.
MEMBER, the rejoin of a station that has lost its group state: it stands in no lock entry, becomes JOINING in the same way
with itself not counted, its joiners go to the lowest-numbered MEMBER left, and MEMBER_OUT with reason REJOIN or RESTART by
the rejoin flag is the last notice, or NOTICES_DROPPED is set. JOINING: sponsor and join place stand, and at its sponsor the
snapshot in hand starts again at cursor 0; but a repeat of the very sequence recorded is a duplicate with no effect. The JOIN
is acked, and no DROP naming its sender stays queued but by a duplicate (R26, R32, R42, R81 to R83, R100). -/
def Obligations.JoinAdmitsStation : Prop :=
  ∀ (s : State) (h : FrameHead) (rejoin : Bool), let f : Frame := { head := h, body := .join rejoin }
    Hears s f → isHolder s.mship.state = true → h.sender ≠ s.straps.number → (∀ x q, s.apply.doubt ≠ .known x q) →
    NoOwnStaging s →
    let x := h.sender
    let e := s.mship.table[h.sender]
    let stranger := { s.apply with doubt := .clear, staging := none, foreign := flagClear s.apply.foreign x }
    (∀ z : Station, e.state = .absent → s.mship.table[z].state = .member →
      (∀ y, y < z → s.mship.table[y].state ≠ .member) →
      ∃ t, exec (.joinFrame h rejoin) s = .next t
        ∧ t.mship.table = s.mship.table.set x.val
            { state := .joining, lastSeq := h.seq, sponsor := some z, joinPlace := some (joiningCount s.mship.table) }
        ∧ t.mship.state = s.mship.state
        ∧ (s.mship.state = .member → t.mship.silence = s.mship.silence.set x.val (some 16384))
        ∧ t.sponsor = (if z = s.straps.number then { s.sponsor with joiners := s.sponsor.joiners ++ [x] } else s.sponsor)
        ∧ flag t.apply.foreign x = false
        ∧ (∀ y, y ≠ x → flag t.apply.foreign y = flag s.apply.foreign y)
        ∧ t.apply.doubt = .clear
        ∧ t.bus = busAfter f true s.bus ∧ t.access = { s.access with reference := some x }
        ∧ t.tx = { s.tx with drops := s.tx.drops.filter fun d => decide (d.target ≠ x) }
        ∧ t.mem = s.mem ∧ t.cells = s.cells ∧ t.locks = s.locks ∧ t.bundle = s.bundle ∧ t.mend = s.mend
        ∧ t.port = s.port ∧ t.straps = s.straps ∧ t.pending = s.pending)
      ∧ (∀ z : Station, e.state = .member → GroupLaw s → s.mship.state = .member →
        z ≠ x → s.mship.table[z].state = .member → (∀ y, y < z → y ≠ x → s.mship.table[y].state ≠ .member) →
        ∃ t, exec (.joinFrame h rejoin) s = .next t
          ∧ t.mship.table[x] = { state := .joining, lastSeq := h.seq, sponsor := some z
                                 joinPlace := some (joiningCount s.mship.table) }
          ∧ (∀ y : Station, y ≠ x → t.mship.table[y] = { s.mship.table[y] with
              sponsor := if s.mship.table[y].sponsor = some x then some z else s.mship.table[y].sponsor })
          ∧ (∀ r : Region, t.locks[r] = yieldEntry x s.locks[r])
          ∧ t.mship.silence = s.mship.silence.set x.val (some 16384)
          ∧ SponsorLaw t
          ∧ (z = s.straps.number → s.sponsor.joiners ++ [x] <+: t.sponsor.joiners)
          ∧ (∀ d ∈ t.tx.drops, d.target ≠ x) ∧ (∀ r ∈ t.tx.replies, r.requester ≠ x)
          ∧ (t.port.notices.getLast? = some (.memberOut x (if rejoin then .rejoin else .restart))
            ∨ t.port.noticesDropped = true)
          ∧ flag t.apply.foreign x = false
          ∧ t.bus = busAfter f true s.bus ∧ t.access = { s.access with reference := some x }
          ∧ t.mship.state = .member ∧ t.mem = s.mem ∧ t.cells = s.cells ∧ t.bundle = s.bundle
          ∧ t.straps = s.straps ∧ t.pending = s.pending)
      ∧ (e.state = .joining → ¬ (h.repeated = true ∧ h.seq = e.lastSeq) → exec (.joinFrame h rejoin) s = .next { taken f s with
          apply := stranger
          sponsor := if s.sponsor.joiners.head? = some x then { s.sponsor with cursor := 0 } else s.sponsor
          tx := { s.tx with drops := s.tx.drops.filter fun d => decide (d.target ≠ x) } })
      ∧ (e.state = .joining → h.repeated = true → h.seq = e.lastSeq → exec (.joinFrame h rejoin) s = .next { taken f s with
          mship := { (taken f s).mship with table := s.mship.table }
          apply := { s.apply with doubt := .clear } })

/-- A LEAVE of a MEMBER, and a DROP by a MEMBER of another JOINING or MEMBER station than this one, applied at a MEMBER
whose own entry is MEMBER: the station removed stands in no lock entry and in the table as ABSENT with last sequence 0,
its silence timer stopped, no DROP naming it queued, no joiner left to it, and it is gone from the foreign-reported set;
MEMBER_OUT is the last notice where the queue has room, and else NOTICES_DROPPED is set. No cell changes. A FILLING station
whose table the LEAVE or the rejoin JOIN of the last MEMBER leaves with none departs NO_SPONSOR to OUTSIDE instead, without
ack and without a MEMBER_OUT (R14, R32, R42, R82, R87, R89, R94, R95). -/
def Obligations.RemovalClearsStation : Prop :=
  ∀ (s : State) (f : Frame) (x : Station),
    GroupLaw s → PortLaw s → s.mship.table[f.head.sender].state = .member →
    (∀ reason : OutReason, Applies s f → s.mship.state = .member →
      ((f.body = .leave ∧ x = f.head.sender ∧ reason = .leave)
        ∨ (x ≠ s.straps.number ∧ s.mship.table[x].state ≠ .absent
          ∧ ((f.body = .drop x .silent ∧ reason = .silent) ∨ (f.body = .drop x .noAck ∧ reason = .noAck)))) →
      ∃ t, exec (frameCommand f) s = .next t
        ∧ t.mship.table[x] = { state := .absent, lastSeq := 0, sponsor := none, joinPlace := none }
        ∧ (∀ y : Station, y ≠ x → t.mship.table[y].state = s.mship.table[y].state
            ∧ t.mship.table[y].sponsor ≠ some x)
        ∧ (∀ r : Region, t.locks[r] = yieldEntry x s.locks[r])
        ∧ t.mship.silence[x] = none
        ∧ (∀ d ∈ t.tx.drops, d.target ≠ x)
        ∧ x ∉ t.sponsor.joiners
        ∧ flag t.apply.foreign x = false
        ∧ (t.port.notices.getLast? = some (.memberOut x reason) ∨ t.port.noticesDropped = true)
        ∧ t.bus = busAfter f true s.bus ∧ t.access = { s.access with reference := some f.head.sender }
        ∧ t.mship.state = .member ∧ t.mem = s.mem ∧ t.cells = s.cells ∧ t.bundle = s.bundle
        ∧ t.straps = s.straps ∧ t.pending = s.pending)
      ∧ (s.mship.state = .filling → x = f.head.sender → (∀ y, y ≠ x → s.mship.table[(y : Station)].state ≠ .member) →
        Hears s f → FromTableSender s f → NoOwnStaging s →
        ((f.body = .leave ∧ NextInSequence s f) ∨ ∃ b, f.body = .join b) →
        ∃ t, exec (frameCommand f) s = .next t ∧ Departed s t ∧ t.mship.state = .outside ∧ t.tx.sendList = []
          ∧ (t.port.notices.getLast? = some (.leftGroup .noSponsor) ∨ t.port.noticesDropped = true)
          ∧ (∀ r, .memberOut x r ∈ t.port.notices → .memberOut x r ∈ s.port.notices)
          ∧ t.bus = busAfter f false s.bus ∧ t.access = { s.access with reference := some x })

/-- A DROP naming this station from a MEMBER that is applied, or that finds doubt held, makes this station depart
DROPPED: it is OUTSIDE with every table, list and queue of its group state cleared, each PRESENT cell STALE with its
content kept, every live ticket DONE, and it does not ack (R14, R29, R55, R75, R90, R94, R116, R129, R173). That in doubt
the DROP goes before the awaited sequence is log 12's reading. -/
def Obligations.DropOfThisStationDeparts : Prop :=
  ∀ (s : State) (f : Frame) (reason : DropReason),
    Hears s f → isHolder s.mship.state = true → f.body = .drop s.straps.number reason →
    f.head.sender ≠ s.straps.number → s.mship.table[f.head.sender].state = .member → NoOwnStaging s → PortLaw s →
    (NextInSequence s f ∨ ∃ x q, s.apply.doubt = .known x q) →
    ∃ t, exec (frameCommand f) s = .next t ∧ Departed s t ∧ t.mship.state = .outside
      ∧ t.tx.sendList = []
      ∧ (t.port.notices.getLast? = some (.leftGroup .dropped) ∨ t.port.noticesDropped = true)
      ∧ t.bus = busAfter f false s.bus ∧ t.access = { s.access with reference := some f.head.sender }

/-- What finds a table holder out of step: with no doubt known, a non-JOIN frame of a table sender that is neither next
in sequence nor the last again (R25); with a sequence known to be missed, any good frame of the group but the awaited one
and a DROP naming this station from a MEMBER (R29); a fragment that is not the one the staging expects (R65); at a MEMBER,
a whole bundle whose sender holds its regions but one of whose versions does not follow a PRESENT cell (R69). The frame is
not acked and has no effect of its own; the station departs OUT_OF_STEP, to JOIN_SENT with a JOIN without ticket on its
emptied send list where auto-rejoin is on and it was FILLING or MEMBER, and else to OUTSIDE (R33, R34, R94, R96). -/
def Obligations.OutOfStepDeparts : Prop :=
  ∀ (s : State) (f : Frame),
    Hears s f → isHolder s.mship.state = true → f.head.sender ≠ s.straps.number → PortLaw s →
    let e := s.mship.table[f.head.sender]
    let follows := (∀ x q, s.apply.doubt ≠ .known x q) ∧ e.state ≠ .absent ∧ NextInSequence s f
    let fresh := ∀ st, s.apply.staging = some st → st.sender ≠ f.head.sender
    (((∀ x q, s.apply.doubt ≠ .known x q) ∧ e.state ≠ .absent ∧ (∀ b, f.body ≠ .join b)
          ∧ f.head.seq ≠ e.lastSeq + 1 ∧ f.head.seq ≠ e.lastSeq)
      ∨ (∃ x q, s.apply.doubt = .known x q ∧ (f.head.sender ≠ x ∨ f.head.seq ≠ q)
          ∧ (e.state ≠ .absent ∨ ∃ b, f.body = .join b)
          ∧ ∀ r, f.body = .drop s.straps.number r → e.state ≠ .member)
      ∨ (follows ∧ ∃ w, f.body = .write w
          ∧ ((fresh ∧ w.index ≠ 0)
            ∨ ∃ st, s.apply.staging = some st ∧ st.sender = f.head.sender
              ∧ (w.index ≠ st.expected ∨ w.count ≠ st.count)))
      ∨ (follows ∧ s.mship.state = .member ∧ ∃ w, f.body = .write w ∧ fresh ∧ w.index = 0 ∧ w.count = 1
          ∧ (∀ r ∈ w.records, s.locks[regionOf r.cell].holder = some f.head.sender)
          ∧ ∃ r ∈ w.records, s.cells[r.cell].status = .present ∧ r.version ≠ 0
            ∧ r.version ≠ succVersion s.cells[r.cell].version)) →
    let rejoins := s.mship.autoRejoin = some true ∧ s.mship.state ≠ .leaving
    ∃ t, exec (frameCommand f) s = .next t ∧ Departed s t
      ∧ (rejoins → t.mship.state = .joinSent ∧ t.tx.sendList = [{ ticket := none, frame := .join }])
      ∧ (¬ rejoins → t.mship.state = .outside ∧ t.tx.sendList = [])
      ∧ (t.port.notices.getLast? = some (.leftGroup .outOfStep) ∨ t.port.noticesDropped = true)
      ∧ t.bus = busAfter f false s.bus ∧ t.access = { s.access with reference := some f.head.sender }

/-- A good non-JOIN frame of a table sender carrying the last sequence again is a duplicate, whatever its repeat flag: it
is acked, restarts its sender's silence timer and clears a doubt of unknown, and has no other effect (R20, R23, R25,
R30). -/
def Obligations.DuplicateIsAckedOnly : Prop :=
  ∀ (s : State) (f : Frame), Hears s f → FromTableSender s f → (∀ b, f.body ≠ .join b) →
    f.head.seq = s.mship.table[f.head.sender].lastSeq →
    exec (frameCommand f) s = .next { taken f s with
      mship := { (taken f s).mship with table := s.mship.table }
      apply := { s.apply with doubt := .clear } }

/-- A good non-JOIN frame from a station ABSENT in the table, and a good frame of any kind bearing this station's own
number that it did not drive, is foreign at a FILLING or MEMBER station: neither acked nor applied, it adds its sender to
the foreign-reported set and posts FOREIGN once, or sets NOTICES_DROPPED where the notice finds no room; a sender already
reported posts nothing; at a LEAVING station nothing is posted or added. A station that is UNCONFIGURED, OUTSIDE or
JOIN_SENT neither applies nor acks any good frame; past UNCONFIGURED it meets its listening condition (R20, R22, R31, R77,
R156, R186). -/
def Obligations.FrameNotOfGroupPassesBy : Prop :=
  ∀ (s : State) (f : Frame), Hears s f →
    let foreign := f.head.sender = s.straps.number
      ∨ (s.mship.table[f.head.sender].state = .absent ∧ ∀ b, f.body ≠ .join b)
    let inGroup := s.mship.state = .filling ∨ s.mship.state = .member
    (foreign → inGroup → flag s.apply.foreign f.head.sender = false →
        s.port.notices.length + reserved s.port < 32 → exec (frameCommand f) s = .next { passedBy f s with
          apply := { s.apply with foreign := flagSet s.apply.foreign f.head.sender }
          port := { s.port with notices := s.port.notices ++ [.foreign f.head.sender] } })
      ∧ (foreign → inGroup → flag s.apply.foreign f.head.sender = false →
        32 ≤ s.port.notices.length + reserved s.port → exec (frameCommand f) s = .next { passedBy f s with
          apply := { s.apply with foreign := flagSet s.apply.foreign f.head.sender }
          port := { s.port with noticesDropped := true } })
      ∧ (foreign → inGroup → flag s.apply.foreign f.head.sender = true →
        exec (frameCommand f) s = .next (passedBy f s))
      ∧ (foreign → s.mship.state = .leaving → exec (frameCommand f) s = .next (passedBy f s))
      ∧ (s.mship.state = .outside ∨ s.mship.state = .joinSent → exec (frameCommand f) s = .next (passedBy f s))
      ∧ (s.mship.state = .unconfigured → exec (frameCommand f) s = .next { passedBy f s with mship := s.mship })

/-! ### Bundles -/

/-- The first fragment of a longer bundle, nothing of its sender being staged, is staged with its sender and count,
expecting index 1; a further one that is not the last appends its records in order and the expected index advances. No
cell changes (R65, R66). -/
def Obligations.FragmentIsStaged : Prop :=
  ∀ (s : State) (h : FrameHead) (w : WriteBody), let f : Frame := { head := h, body := .write w }
    Applies s f →
    ((∀ st, s.apply.staging = some st → st.sender ≠ h.sender) → w.index = 0 → 1 < w.count →
        exec (.writeFrame h w) s = .next { taken f s with apply := { (taken f s).apply with
          staging := some { sender := h.sender, count := w.count, expected := 1, records := w.records } } })
      ∧ ∀ st, s.apply.staging = some st → st.sender = h.sender → w.index = st.expected → w.count = st.count →
        w.index + 1 < w.count → exec (.writeFrame h w) s =
          .next { taken f s with apply := { (taken f s).apply with
            staging := some { st with expected := st.expected + 1, records := st.records ++ w.records } } }

/-- At the commit point of a peer's bundle, its last fragment: with the sender holding every region and every record's
version accepted by this station's cell (at a FILLING station an unmarked cell accepts any; else a PRESENT cell accepts the
version that follows its own, or 0, and a DAMAGED cell any), every record's cell is PRESENT with the record's data and
version, its check rewritten, its upset ended and at a FILLING station its fresh mark set, and no other cell changes; a
watched region written is reported or NOTICES_DROPPED is set; the cells written leave the mend list; no ticket changes. A
bundle whose sender fails the holder check for one record is refused whole: no cell changes, no notice is posted, and the
fragment is applied in every other respect. Either way the staging is empty (R9, R65, R68 to R70, R126, R136). That a marked
DAMAGED cell at a FILLING station accepts any version, by R69's table, though R5 has it checked as though PRESENT, is log 33's
deduction. -/
def Obligations.CommitPointWritesBundle : Prop :=
  ∀ (s : State) (h : FrameHead) (w : WriteBody) (recs : List WriteRecord),
    let f : Frame := { head := h, body := .write w }
    Applies s f →
    (((∀ st, s.apply.staging = some st → st.sender ≠ h.sender) ∧ w.index = 0 ∧ w.count = 1 ∧ recs = w.records)
      ∨ ∃ st, s.apply.staging = some st ∧ st.sender = h.sender ∧ w.index = st.expected ∧ w.count = st.count
        ∧ w.index + 1 = w.count ∧ recs = st.records ++ w.records) →
    let after : State := { taken f s with apply := { (taken f s).apply with staging := none } }
    ((∃ r ∈ recs, s.locks[regionOf r.cell].holder ≠ some h.sender) → exec (.writeFrame h w) s = .next after)
      ∧ ((∀ r ∈ recs, s.locks[regionOf r.cell].holder = some h.sender
          ∧ ((s.mship.state = .filling ∧ s.cells[r.cell].fresh = false)
            ∨ s.cells[r.cell].status = .damaged
            ∨ (s.cells[r.cell].status = .present
              ∧ (r.version = 0 ∨ r.version = succVersion s.cells[r.cell].version)))) →
        StoreLaw s → (recs.map (·.cell)).Nodup → s.mend.cells.Nodup →
        ∃ t, exec (.writeFrame h w) s = .next t
          ∧ (∀ r ∈ recs, cellData t.mem r.cell = r.data
              ∧ t.cells[r.cell] = { version := r.version, check := cellCheck r.version r.data, status := .present
                                    fresh := if s.mship.state = .filling then true else s.cells[r.cell].fresh
                                    upset := false })
          ∧ (∀ c : CellIx, (∀ r ∈ recs, r.cell ≠ c) → cellData t.mem c = cellData s.mem c ∧ t.cells[c] = s.cells[c])
          ∧ (∀ r ∈ recs, flag s.port.watch (regionOf r.cell) = true →
              (∃ rep, .changed (regionOf r.cell) h.sender rep ∈ t.port.notices) ∨ t.port.noticesDropped = true)
          ∧ (∀ r ∈ recs, r.cell ∉ t.mend.cells)
          ∧ t.port.tickets = s.port.tickets ∧ t.port.phase = s.port.phase ∧ t.port.watch = s.port.watch
          ∧ { t.tx with mend := s.tx.mend } = after.tx
          ∧ { t with mem := s.mem, cells := s.cells, port := s.port, mend := s.mend, tx := after.tx } = after)

/-- A frame of a peer in the group that is applied in the middle of this station's own bundle, and so discards its staging,
breaks the bundle: the COMMIT ticket completes REFUSED and the outgoing bundle buffer is emptied; a fragment in the slot that
no station has heard is abandoned and gives its sequence back, and any other frame in the slot stands. A PRESENCE, a CLAIM of
a free region by a MEMBER, and a MEND or SIGNAL for another station show it; and a YIELD that grants this station a region,
whose GRANTED stands before the REFUSED by the order of R41 and R87 (log 29). A foreign frame breaks nothing, whatever is
staged (R24, R31, R38, R40, R41, R66, R71, R164). -/
def Obligations.ForeignerInMidBundleBreaksIt : Prop :=
  ∀ (s : State) (f : Frame) (st : Staging) (b : Outgoing) (tk : Ticket),
    Hears s f → s.apply.staging = some st → st.sender = s.straps.number → s.bundle.outgoing = some b →
    s.port.tickets[b.ticket] = some tk → tk.state ≠ .done →
    (FromTableSender s f → NextInSequence s f → ∀ tx' : Transmit,
      (((∃ sl w, s.tx.slot = some sl ∧ sl.heard = false ∧ sl.frame.body = .write w
            ∧ tx' = { (taken f s).tx with slot := none, seq := sl.frame.head.seq }))
        ∨ ((∀ sl, s.tx.slot = some sl → sl.heard = true ∨ ∀ w, sl.frame.body ≠ .write w) ∧ tx' = (taken f s).tx)) →
      let broken : State := { taken f s with
        bundle := { s.bundle with outgoing := none }, tx := tx', port := completed b.ticket tk .refused s.port }
      ((f.body = .presence ∨ (∃ x c, f.body = .mend x c ∧ x ≠ s.straps.number)
            ∨ (∃ x bytes, f.body = .signal (some x) bytes ∧ x ≠ s.straps.number)) →
          exec (frameCommand f) s = .next broken)
        ∧ (∀ r, f.body = .claim r → s.mship.table[f.head.sender].state = .member → s.locks[(r : Region)].holder = none →
          exec (frameCommand f) s = .next { broken with
            locks := s.locks.set r.val { s.locks[r] with holder := some f.head.sender } })
        ∧ (∀ r ws k u, f.body = .yield r → s.locks[(r : Region)].holder = some f.head.sender →
          s.locks[r].waiters = s.straps.number :: ws → SoleLive k u s.port → u.kind = .claim → u.arg = .region r →
          tk.kind = .commit → exec (frameCommand f) s = .next { broken with
            locks := s.locks.set r.val { holder := some s.straps.number, waiters := ws }
            port := completed b.ticket tk .refused (completed k u .granted s.port) }))
      ∧ (isHolder s.mship.state = true → f.head.sender = s.straps.number
          ∨ (s.mship.table[f.head.sender].state = .absent ∧ ∀ j, f.body ≠ .join j) →
        ∃ t, exec (frameCommand f) s = .next t ∧ t.apply.staging = s.apply.staging ∧ t.bundle = s.bundle ∧ t.tx = s.tx
          ∧ t.port.tickets = s.port.tickets)

/-! ### Joining, mending and signals at a receiver -/

/-- In AWAIT_STATE a SNAPSTATE aimed at this station begins its fill: the tables are the images, the sender's last sequence
that of the frame, the station FILLING with staging, doubt and foreign-reported set clear, the silence timers stopped, no
fresh mark set and every cell otherwise as it was; the presence timer and the tickets stand, no notice is posted, and the
frame is acked. Any other good frame of another station is acked there and not applied (R21, R77, R108, R156). -/
def Obligations.SnapStateBeginsFill : Prop :=
  ∀ (s : State), s.mship.state = .awaitState →
    (∀ (h : FrameHead) (im : Images),
      let f : Frame := { head := h, body := .snapState s.straps.number im }
      Hears s f → exec (.snapStateFrame h s.straps.number im) s = .next { s with
        bus := busAfter f true s.bus
        access := { s.access with reference := some h.sender }
        mship := { s.mship with
          state := .filling
          table := im.members.set h.sender.val { im.members[h.sender] with lastSeq := h.seq }
          silence := Vector.replicate 16 none
          listening := true
          listen := none }
        locks := im.locks
        apply := { doubt := .clear, foreign := 0, staging := none }
        sponsor := { joiners := [], cursor := 0 }
        cells := s.cells.map fun c => { c with fresh := false } })
      ∧ ∀ f : Frame, Hears s f → f.head.sender ≠ s.straps.number →
        (∀ im, f.body ≠ .snapState s.straps.number im) →
        exec (frameCommand f) s = .next { passedBy f s with bus := busAfter f true s.bus }

/-- A SNAPCELLS from this FILLING station's sponsor fills the unmarked cells of its group: a present record writes data and
version, rewrites the check and ends an upset, a missing record makes the cell DAMAGED with its content left; marked cells
and all other cells stand. With group 31 the fill ends: this station is MEMBER, no mark is set, a silence timer runs for
every other JOINING and MEMBER entry, the cells listed for mending are DAMAGED, and the live JOIN ticket completes JOINED.
At another table holder than the target, group 31 makes the JOINING target MEMBER, takes it from the sponsor list and posts
MEMBER_IN; no cell changes there (R6, R10, R84, R101, R105, R111, R112). -/
def Obligations.SnapCellsFillTheJoiner : Prop :=
  ∀ (s : State) (h : FrameHead) (x : Station) (g : Group) (recs : Vector SnapRecord 8),
    let f : Frame := { head := h, body := .snapCells x g recs }
    Applies s f → StoreLaw s → GroupLaw s → s.mship.table[x].state = .joining → s.mship.table[x].sponsor = some h.sender →
    (∀ i j u v, s.port.tickets[(i : TicketNo)] = some u → u.kind = .join → u.state ≠ .done →
      s.port.tickets[(j : TicketNo)] = some v → v.kind = .join → v.state ≠ .done → i = j) →
    ∃ t, exec (.snapCellsFrame h x g recs) s = .next t
      ∧ t.bus = busAfter f true s.bus ∧ t.apply.doubt = .clear ∧ t.apply.staging = none
      ∧ (x ≠ s.straps.number → t.mem = s.mem ∧ t.cells = s.cells)
      ∧ (x = s.straps.number → s.mship.state = .filling →
        (∀ i : Fin 8,
            let c := groupCell g i
            let kept := if g = 31 then false else s.cells[c].fresh
            (s.cells[c].fresh = true → t.cells[c] = { s.cells[c] with fresh := kept }
              ∧ cellData t.mem c = cellData s.mem c)
            ∧ (s.cells[c].fresh = false → ∀ v d, recs[i] = .present v d →
              t.cells[c] = { version := v, check := cellCheck v d, status := .present, fresh := false, upset := false }
                ∧ cellData t.mem c = d)
            ∧ (s.cells[c].fresh = false → recs[i] = .missing →
              t.cells[c] = { s.cells[c] with status := .damaged } ∧ cellData t.mem c = cellData s.mem c))
          ∧ ∀ c : CellIx, c.val / 8 ≠ g.val →
            t.cells[c] = { s.cells[c] with fresh := if g = 31 then false else s.cells[c].fresh }
              ∧ cellData t.mem c = cellData s.mem c)
      ∧ (g ≠ 31 → { t with mem := s.mem, cells := s.cells } = taken f s)
      ∧ (g = 31 →
        t.mship.table[x].state = .member ∧ t.mship.table[x].sponsor = none ∧ t.mship.table[x].joinPlace = none
        ∧ (∀ y : Station, y ≠ x → t.mship.table[y].state = s.mship.table[y].state)
        ∧ t.locks = s.locks ∧ t.bundle = s.bundle ∧ t.straps = s.straps ∧ t.pending = s.pending
        ∧ (x ≠ s.straps.number → x ∉ t.sponsor.joiners ∧ t.mship.state = s.mship.state
          ∧ (t.port.notices.getLast? = some (.memberIn x) ∨ t.port.noticesDropped = true))
        ∧ (x = s.straps.number → s.mship.state = .filling → t.mship.state = .member
          ∧ (∀ y : Station, t.mship.silence[y] =
              if y ≠ x ∧ s.mship.table[y].state ≠ .absent then some 16384 else none)
          ∧ (∀ c ∈ t.mend.cells, t.cells[c].status = .damaged)
          ∧ ∀ k tk, SoleLive k tk s.port → tk.kind = .join →
            t.port.tickets[k] = some { tk with state := .done }
              ∧ .completion k .join .joined ∈ t.port.notices))

/-- A MEND applied at its target, MEMBER or LEAVING, from a MEMBER queues a MENDREPLY entry while fewer than 8 stand, and
nothing beyond them; at another station, at a FILLING one, or from a JOINING sender it queues nothing. A SIGNAL from a
MEMBER posts SIGNAL_IN at its target, or at every MEMBER and LEAVING station for "all", or sets NOTICES_DROPPED where the
notice finds no room; elsewhere it has no effect of its own (R110, R121, R132, R186). -/
def Obligations.MendAndSignalReachTheirTarget : Prop :=
  ∀ (s : State) (f : Frame), Applies s f →
    let e := s.mship.table[f.head.sender]
    let serves := s.mship.state = .member ∨ s.mship.state = .leaving
    (∀ x c, f.body = .mend x c →
        let asks := x = s.straps.number ∧ e.state = .member ∧ serves
        (asks → s.tx.replies.length < 8 → exec (.mendFrame f.head x c) s = .next { taken f s with
          tx := { (taken f s).tx with replies := s.tx.replies ++ [{ requester := f.head.sender, cell := c }] } })
        ∧ (¬ asks ∨ 8 ≤ s.tx.replies.length → exec (.mendFrame f.head x c) s = .next (taken f s)))
      ∧ ∀ x bytes, f.body = .signal x bytes →
        let reaches := (x = none ∨ x = some s.straps.number) ∧ e.state = .member ∧ serves
        (reaches → s.port.notices.length + reserved s.port < 32 →
          exec (.signalFrame f.head x bytes) s = .next { taken f s with
            port := { s.port with notices := s.port.notices ++ [.signalIn f.head.sender bytes] } })
        ∧ (reaches → 32 ≤ s.port.notices.length + reserved s.port →
          exec (.signalFrame f.head x bytes) s = .next { taken f s with port := { s.port with noticesDropped := true } })
        ∧ (¬ reaches → exec (.signalFrame f.head x bytes) s = .next (taken f s))

/-- A DATA reply for the cell of the current mend, from any MEMBER, writes the cell where it is still DAMAGED, leaves it
where it is not, and ends the mend: the cell leaves the list. A NONE from the present responder with its window running,
or the window's expiry, makes the next attempt at a MEMBER: the next MEMBER in the cyclic order is asked, and where none is
left untried the mend ends, its cell leaves the list still DAMAGED and CELL_LOST is posted, or NOTICES_DROPPED set where it
finds no room. Where a mend ends with cells left at a MEMBER, the next begins at once with the new head: the holder of its
region is asked first where that is another MEMBER, else the first MEMBER in the cyclic order. A NONE from another station,
or any reply that names another cell, changes nothing (R11, R118, R119, R123, R124, R127). -/
def Obligations.MendReplyRepairsOrMovesOn : Prop :=
  ∀ (s : State) (m : CurrentMend) (c : CellIx) (rest : List CellIx),
    StoreLaw s → s.mend = { cells := c :: rest, current := some m } → c ∉ rest →
    (s.mship.state = .member ∨ s.mship.state = .leaving) →
    let first := fun (d : CellIx) (x : Station) =>
      (s.locks[regionOf d].holder = some x ∧ x ≠ s.straps.number ∧ s.mship.table[x].state = .member)
        ∨ ((∀ h, s.locks[regionOf d].holder = some h → h = s.straps.number ∨ s.mship.table[h].state ≠ .member)
          ∧ NextAsked s 0 x)
    let lost := fun (before : State) (t : State) =>
      let gone : State := { before with
        mend := { cells := [], current := none }, tx := { before.tx with mend := none } }
      (s.port.notices.length + reserved s.port < 32 →
        t = { gone with port := { s.port with notices := s.port.notices ++ [.cellLost c] } })
      ∧ (32 ≤ s.port.notices.length + reserved s.port → t = { gone with port := { s.port with noticesDropped := true } })
    (∀ (h : FrameHead) (a : CellIx) (answer : MendAnswer),
      let f : Frame := { head := h, body := .mendReply s.straps.number a answer }
      Applies s f → s.mship.table[h.sender].state = .member →
      (∀ v d, a = c → answer = .data v d → ∃ t, exec (.mendReplyFrame h s.straps.number a answer) s = .next t
          ∧ (s.cells[c].status = .damaged → cellData t.mem c = d ∧ t.cells[c] =
              { version := v, check := cellCheck v d, status := .present, fresh := s.cells[c].fresh, upset := false })
          ∧ (s.cells[c].status ≠ .damaged → t.mem = s.mem ∧ t.cells = s.cells)
          ∧ (∀ b : CellIx, b ≠ c → cellData t.mem b = cellData s.mem b ∧ t.cells[b] = s.cells[b])
          ∧ c ∉ t.mend.cells
          ∧ (rest = [] → { t with mem := s.mem, cells := s.cells } =
              { taken f s with mend := { cells := [], current := none }, tx := { (taken f s).tx with mend := none } })
          ∧ (∀ b bs x, rest = b :: bs → s.mship.state = .member → first b x →
            { t with mem := s.mem, cells := s.cells } = { taken f s with
              mend := { cells := rest, current := some { responder := x, tried := flagSet 0 x, window := none } }
              tx := { (taken f s).tx with mend := some { responder := x, cell := b } } }))
        ∧ (∀ x, a = c → answer = .noCopy → m.responder = h.sender → m.window ≠ none → s.mship.state = .member →
          NextAsked s m.tried x →
          exec (.mendReplyFrame h s.straps.number a answer) s = .next (asked x c m.tried (taken f s)))
        ∧ (a = c → answer = .noCopy → m.responder = h.sender → m.window ≠ none → s.mship.state = .member →
          NoneLeft s m.tried → rest = [] →
          ∃ t, exec (.mendReplyFrame h s.straps.number a answer) s = .next t ∧ lost (taken f s) t)
        ∧ (a ≠ c ∨ (answer = .noCopy ∧ (m.responder ≠ h.sender ∨ m.window = none)) →
          exec (.mendReplyFrame h s.straps.number a answer) s = .next (taken f s)))
      ∧ (NoneInHand s → m.window ≠ none →
        (∀ x, s.mship.state = .member → NextAsked s m.tried x →
            exec .mendWindowExpiry s = .next (asked x c m.tried s))
          ∧ (s.mship.state = .member → NoneLeft s m.tried → rest = [] →
            ∃ t, exec .mendWindowExpiry s = .next t ∧ lost s t)
          ∧ (s.mship.state = .leaving → exec .mendWindowExpiry s = .next { s with
            mend := { s.mend with current := none }, tx := { s.tx with mend := none } }))

/-! ### Damaged frames and collisions -/

/-- The doubt state after a damaged frame, by the table of R28: at a table holder the whole table, in any other state no
doubt is kept. A damaged frame is not acked, unsets the reference sender, and changes nothing else (R20, R22, R28, R146,
R156). -/
def Obligations.DamagedFrameSetsDoubt : Prop :=
  ∀ (s : State) (mark : Bool) (h : Heard), NoneInHand s → CarrierOver mark s →
    (∀ f, classify s.straps.number mark h ≠ .good f) →
    ∃ t, exec (.damagedFrame h) s = .next t
      ∧ t.bus.state = .ackWindow ∧ t.bus.ackDrive = false ∧ t.bus.ackMap = s.bus.ackMap
      ∧ { t with bus := s.bus } = { s with
          access := { s.access with reference := none }, apply := { s.apply with doubt := t.apply.doubt } }
      ∧ (isHolder s.mship.state = false → t.apply.doubt = s.apply.doubt)
      ∧ (isHolder s.mship.state = true →
        (∀ x q, s.apply.doubt = .known x q → t.apply.doubt = .known x q)
        ∧ (classify s.straps.number mark h = .damagedUnknown → (∀ x q, s.apply.doubt ≠ .known x q) →
          t.apply.doubt = .unknown)
        ∧ ∀ x k q, classify s.straps.number mark h = .damagedKnown x k q → (∀ y p, s.apply.doubt ≠ .known y p) →
          (x = s.straps.number → t.apply.doubt = s.apply.doubt)
          ∧ (x ≠ s.straps.number → s.mship.table[x].state = .absent → t.apply.doubt = .unknown)
          ∧ (x ≠ s.straps.number → s.mship.table[x].state ≠ .absent → s.mship.table[x].lastSeq = q →
            t.apply.doubt = s.apply.doubt)
          ∧ (x ≠ s.straps.number → s.mship.table[x].state ≠ .absent → s.mship.table[x].lastSeq ≠ q →
            t.apply.doubt = .known x q))

/-- A collision of this station's transmission, heard damaged: the reference sender is unset, the consecutive-collision
count rises by one, and with the eighth LINE_FAULT is posted (or NOTICES_DROPPED set) and the hold-off starts at 16384
slots. The frame stays in the slot as it is, and no ack map is judged: the bus is in its ack window with nothing driven.
(A WRITE fragment that no station heard and whose bundle was given up is left to log 17.) (R28, R149, R156, R160,
R161). -/
def Obligations.CollisionIsCounted : Prop :=
  ∀ (s : State) (mark : Bool) (h : Heard), NoneInHand s → s.bus.state = .sending →
    (∀ f, classify s.straps.number mark h ≠ .good f) →
    (∀ sl, s.tx.slot = some sl → s.bundle.outgoing ≠ none ∨ sl.heard = true ∨ ∀ w, sl.frame.body ≠ .write w) →
    ∃ t, exec (.collision mark h) s = .next t
      ∧ t.bus.state = .ackWindow ∧ t.bus.ackDrive = false
      ∧ t.access = { s.access with
          reference := none
          collisions := min 8 (s.access.collisions + 1)
          holdOff := if s.access.collisions = 7 then some 16384 else s.access.holdOff }
      ∧ (s.access.collisions ≠ 7 → t.port = s.port)
      ∧ (s.access.collisions = 7 → s.port.notices.length + reserved s.port < 32 →
          t.port = { s.port with notices := s.port.notices ++ [.lineFault] })
      ∧ (s.access.collisions = 7 → 32 ≤ s.port.notices.length + reserved s.port →
          t.port = { s.port with noticesDropped := true })
      ∧ { t with bus := s.bus, access := s.access, port := s.port, apply := s.apply } = s
      ∧ { t.apply with doubt := s.apply.doubt } = s.apply

/-- The reference sender L by the table of R156: a good frame sets its sender in every station state, whatever becomes of
the frame; this station's own good echo sets this station; a damaged frame and a collision unset it; a reset unsets it; and
no other command changes it, CONFIGURE, the departures and the hold-off's expiry among them. STATUS does not show it. That a
collision unsets it even where the sender's receiver heard a good frame in that carrier is the order of log 21 (R156). -/
def Obligations.ReferenceSenderFollowsCarrierEnds : Prop :=
  (∀ (s t : State) (f : Frame), Running s → frameOkAt s.straps.number f = true → AtCarrierEnd s →
      exec (frameCommand f) s = .next t → t.access.reference = some f.head.sender)
    ∧ (∀ (s t : State) (sl : Slot), Running s → s.bus.state = .sending → s.tx.slot = some sl →
      exec (frameCommand sl.frame) s = .next t → t.access.reference = some s.straps.number)
    ∧ (∀ (s t : State) (mark : Bool) (h : Heard), Running s → CarrierOver mark s →
      exec (.damagedFrame h) s = .next t → t.access.reference =
        match classify s.straps.number mark h with
        | .good f => some f.head.sender
        | _ => none)
    ∧ (∀ (s t : State) (mark : Bool) (h : Heard), Running s → s.bus.state = .sending →
      exec (.collision mark h) s = .next t → t.access.reference = none)
    ∧ (∀ (s t : State) (c : Instr), c = .reset ∨ (∃ n r, c = .resetRelease n r) → exec c s = .next t →
      t.access.reference = none)
    ∧ (∀ (s t : State) (c : Instr), c ≠ .reset → (∀ n r, c ≠ .resetRelease n r) → (∀ f, c ≠ frameCommand f) →
      (∀ h, c ≠ .damagedFrame h) → (∀ m h, c ≠ .collision m h) → exec c s = .next t →
      t.access.reference = s.access.reference)
    ∧ ∀ (s t : State) (l : Option Station), exec .status s = .next t →
      exec .status { s with access := { s.access with reference := l } } =
        .next { t with access := { t.access with reference := l } }

/-! ### Ack windows and settlement -/

/-- The end of an ack window at a MEMBER. After a frame of another station nothing is judged. After this station's own
frame with a good echo, whose kind completes no ticket at its settlement: with every required position driven the frame
settles; with one missing and repeats left a repeat is due at the repeat gap; at the repeat limit, with some driven, the
frame settles and a DROP(NO_ACK) of settlement class is queued for each missing station and for no other; with none of a
non-empty set driven the station departs ISOLATED. After the eighth collision a frame that has been heard makes the station
depart ISOLATED, and one never heard stays in the slot as it is; after an earlier one nothing is judged (R91, R92, R151, R158,
R160, R161, R163, R168, R169). -/
def Obligations.AckWindowSettlesFrame : Prop :=
  ∀ (s : State) (map : Flags16), NoneInHand s → s.bus.state = .ackWindow → s.mship.state = .member →
    (s.bus.report = .heard → exec (.ackWindowEnd map) s = .next (windowEnded map s))
      ∧ (∀ sl : Slot, s.bus.report = .collided → s.tx.slot = some sl →
        (s.access.collisions < 8 ∨ sl.heard = false → exec (.ackWindowEnd map) s = .next (windowEnded map s))
        ∧ (s.access.collisions = 8 → sl.heard = true → s.mship.listening = true → PortLaw s →
          ∃ t, exec (.ackWindowEnd map) s = .next t ∧ Departed (windowEnded map s) t ∧ t.mship.state = .outside
            ∧ t.tx.sendList = []
            ∧ (t.port.notices.getLast? = some (.leftGroup .isolated) ∨ t.port.noticesDropped = true)
            ∧ t.bus = (windowEnded map s).bus ∧ t.access = (windowEnded map s).access))
      ∧ ∀ (sl : Slot) (limit : Nat), s.bus.report = .ownGood → s.tx.slot = some sl → s.mship.repeatLimit = some limit →
        let w := windowEnded map s
        let missing := fun x : Station => flag sl.required x = true ∧ flag map x = false
        let silent := ∀ x, flag sl.required x = true → flag map x = false
        ((∃ x, missing x) → sl.repeats < limit → exec (.ackWindowEnd map) s =
            .next { w with tx := { w.tx with slot := some { sl with gap := .repeatGap } } })
          ∧ ((∃ x, missing x) → limit ≤ sl.repeats → silent → s.mship.listening = true → PortLaw s →
            ∃ t, exec (.ackWindowEnd map) s = .next t ∧ Departed w t ∧ t.mship.state = .outside ∧ t.tx.sendList = []
              ∧ (t.port.notices.getLast? = some (.leftGroup .isolated) ∨ t.port.noticesDropped = true)
              ∧ t.bus = w.bus ∧ t.access = w.access)
          ∧ (sl.frame.body = .presence ∨ (∃ r, sl.frame.body = .yield r) ∨ (∃ x r, sl.frame.body = .drop x r)
              ∨ (∃ x im, sl.frame.body = .snapState x im) ∨ (∃ x g rs, sl.frame.body = .snapCells x g rs)
              ∨ (∃ x c a, sl.frame.body = .mendReply x c a) →
            ((∀ x, ¬ missing x) → exec (.ackWindowEnd map) s = .next { w with tx := { w.tx with slot := none } })
            ∧ ((∃ x, missing x) → limit ≤ sl.repeats → ¬ silent → CapacityLaw s → ∃ t, exec (.ackWindowEnd map) s = .next t
              ∧ { t with tx := { t.tx with drops := w.tx.drops } } = { w with tx := { w.tx with slot := none } }
              ∧ (∀ x, missing x → { target := x, reason := .noAck, cls := .settlement } ∈ t.tx.drops)
              ∧ ∀ d, ¬ missing d.target → (d ∈ t.tx.drops ↔ d ∈ w.tx.drops)))

/-- What a settlement with every required ack does to the ticket that rode on the frame: a CLAIM still SENDING waits; a
SIGNAL completes DELIVERED, but NOT_DELIVERED for a single target that stood outside the required set; a MEND starts the
window of the mend it belongs to at 8192 slots; a fragment with more to come advances the bundle's index. That a settled
CLAIM leaves a ticket that is not SENDING, and a fragment moves only a bundle that has begun, is log 26's deduction; when a
MEND belongs to the current mend is log 24's. A LEAVE's settlement, whether every position was driven or some with the
repeats used up, completes its ticket DONE and the station departs LEAVE, no DROP being queued; with none of a non-empty set
driven it departs ISOLATED and the ticket is LOST (R39, R63, R88, R94, R117, R120, R131, R171, R172). -/
def Obligations.SettlementMovesTicket : Prop :=
  (∀ (s : State) (map : Flags16) (sl : Slot), NoneInHand s → s.bus.state = .ackWindow → s.mship.state = .member →
    s.bus.report = .ownGood → s.tx.slot = some sl → (∀ x, flag sl.required x = true → flag map x = true) →
    let w := windowEnded map s
    let settled : State := { w with tx := { w.tx with slot := none } }
    (∀ r k tk, sl.frame.body = .claim r → sl.ticket = some k → s.port.tickets[k] = some tk →
        (tk.state = .sending → exec (.ackWindowEnd map) s = .next { settled with
          port := { s.port with tickets := s.port.tickets.set k.val (some { tk with state := .waiting }) } })
        ∧ (tk.state ≠ .sending → exec (.ackWindowEnd map) s = .next settled))
      ∧ (∀ target bytes k tk, sl.frame.body = .signal target bytes → sl.ticket = some k →
        s.port.tickets[k] = some tk → tk.state ≠ .done →
        sl.targetIn = (match target with
          | some x => flag sl.required x
          | none => false) →
        ((∀ x, target = some x → flag sl.required x = true) → exec (.ackWindowEnd map) s =
            .next { settled with port := completed k tk .delivered s.port })
          ∧ ((∃ x, target = some x ∧ flag sl.required x = false) → exec (.ackWindowEnd map) s =
            .next { settled with port := completed k tk .notDelivered s.port }))
      ∧ (∀ x c m rest, sl.frame.body = .mend x c → s.mend = { cells := c :: rest, current := some m } →
        m.responder = x → s.tx.mend = none → exec (.ackWindowEnd map) s = .next { settled with
          mend := { s.mend with current := some { m with window := some 8192 } } })
      ∧ (∀ wb b tk, sl.frame.body = .write wb → wb.more = true → s.bundle.outgoing = some b →
        s.port.tickets[b.ticket] = some tk → tk.state ≠ .queued → exec (.ackWindowEnd map) s = .next { settled with
          bundle := { s.bundle with outgoing := some { b with next := b.next + 1 } } }))
    ∧ ∀ (s : State) (map : Flags16) (sl : Slot) (k : TicketNo) (tk : Ticket) (limit : Nat), NoneInHand s →
      s.bus.state = .ackWindow → s.mship.state = .leaving → s.bus.report = .ownGood → s.tx.slot = some sl →
      sl.frame.body = .leave → sl.ticket = some k → s.port.tickets[k] = some tk → tk.state ≠ .done →
      s.mship.repeatLimit = some limit → s.mship.listening = true → PortLaw s →
      let w := windowEnded map s
      let acked := ∃ x, flag sl.required x = true ∧ flag map x = true
      ((∀ x, flag sl.required x = true → flag map x = true) ∨ (limit ≤ sl.repeats ∧ acked) →
          ∃ t, exec (.ackWindowEnd map) s = .next t ∧ Departed { w with port := completed k tk .done s.port } t
            ∧ t.mship.state = .outside ∧ t.tx.sendList = []
            ∧ (t.port.notices.getLast? = some (.leftGroup .leave) ∨ t.port.noticesDropped = true)
            ∧ t.bus = w.bus ∧ t.access = w.access)
        ∧ ((∃ x, flag sl.required x = true ∧ flag map x = false) → sl.repeats < limit → exec (.ackWindowEnd map) s =
          .next { w with tx := { w.tx with slot := some { sl with gap := .repeatGap } } })
        ∧ ((∃ x, flag sl.required x = true) → ¬ acked → limit ≤ sl.repeats →
          ∃ t, exec (.ackWindowEnd map) s = .next t ∧ Departed w t ∧ t.mship.state = .outside ∧ t.tx.sendList = []
            ∧ (t.port.notices.getLast? = some (.leftGroup .isolated) ∨ t.port.noticesDropped = true)
            ∧ t.bus = w.bus ∧ t.access = w.access)

/-- The own JOIN of a JOIN_SENT station at its window's end: with a position other than its own driven it settles, the
station goes to AWAIT_STATE with its presence timer at 4096 slots and the JOIN ticket WAITING; with none and repeats left
it is repeated; with none and the repeats used up the station founds its group: MEMBER, alone in the table with the JOIN's
sequence, every region free, its ABSENT and STALE cells PRESENT with their content, and the JOIN ticket FOUNDED (R13, R80,
R85, R168, R170). -/
def Obligations.OwnJoinSettles : Prop :=
  ∀ (s : State) (map : Flags16) (sl : Slot) (limit : Nat) (k : TicketNo) (tk : Ticket),
    NoneInHand s → s.bus.state = .ackWindow → s.mship.state = .joinSent → s.bus.report = .ownGood →
    s.tx.slot = some sl → sl.ticket = some k → SoleLive k tk s.port → tk.kind = .join → tk.arg = .none →
    (∀ j u, s.port.tickets[(j : TicketNo)] = some u → u.kind = .join → u.state ≠ .done → j = k) →
    s.mship.repeatLimit = some limit →
    let w := windowEnded map s
    let settled : State := { w with tx := { w.tx with slot := none } }
    let acked := ∃ x, x ≠ s.straps.number ∧ flag map x = true
    (acked → exec (.ackWindowEnd map) s = .next { settled with
        mship := { w.mship with state := .awaitState, presence := some 4096 }
        port := { s.port with tickets := s.port.tickets.set k.val (some { tk with state := .waiting }) } })
      ∧ (¬ acked → sl.repeats < limit → exec (.ackWindowEnd map) s =
        .next { w with tx := { w.tx with slot := some { sl with gap := .repeatGap } } })
      ∧ (¬ acked → limit ≤ sl.repeats → ∃ t, exec (.ackWindowEnd map) s = .next t
        ∧ t.mship.state = .member
        ∧ (∀ x : Station, t.mship.table[x] =
            if x = s.straps.number then
              { state := .member, lastSeq := sl.frame.head.seq, sponsor := none, joinPlace := none }
            else { state := .absent, lastSeq := 0, sponsor := none, joinPlace := none })
        ∧ (∀ x : Station, t.mship.silence[x] = none) ∧ t.mship.presence = some 4096
        ∧ (∀ r : Region, t.locks[r] = { holder := none, waiters := [] })
        ∧ (∀ c : CellIx, t.cells[c] = { s.cells[c] with
            status := if s.cells[c].status = .damaged then .damaged else .present })
        ∧ t.apply = { doubt := .clear, foreign := 0, staging := none }
        ∧ t.sponsor = { joiners := [], cursor := 0 } ∧ t.mend = { cells := [], current := none }
        ∧ t.port = completed k tk .founded s.port
        ∧ t.mem = s.mem ∧ t.bundle = s.bundle ∧ t.bus = w.bus ∧ t.access = w.access ∧ t.tx = settled.tx
        ∧ t.straps = s.straps ∧ t.pending = s.pending)

/-! ### Timers and storage upsets -/

/-- The timers' expiries, each where the timer runs: the listen timer's meets the listening condition; the line-fault
hold-off's returns the collision count to 0; the presence timer's queues one PRESENCE and restarts at 4096 slots; a peer's
silence timer's queues DROP(peer, SILENT) unless a DROP naming it is queued, and restarts at 16384. A timer that is stopped
has no expiry; that its command then changes nothing is log 3's choice (R77, R91, R92, R161, R163). -/
def Obligations.TimersExpire : Prop :=
  ∀ (s : State), NoneInHand s →
    (s.mship.listen ≠ none → exec .listenTimerExpiry s =
        .next { s with mship := { s.mship with listening := true, listen := none } })
      ∧ (s.access.holdOff ≠ none → exec .holdOffExpiry s =
        .next { s with access := { s.access with collisions := 0, holdOff := none } })
      ∧ (s.mship.presence ≠ none → exec .presenceTimerExpiry s = .next { s with
        mship := { s.mship with presence := some 4096 }, tx := { s.tx with presence := true } })
      ∧ (∀ x : Station, s.mship.silence[x] ≠ none →
        let restarted : State := { s with
          mship := { s.mship with silence := s.mship.silence.set x.val (some 16384) } }
        ((∃ d ∈ s.tx.drops, d.target = x) → exec (.silenceTimerExpiry x) s = .next restarted)
        ∧ ((∀ d ∈ s.tx.drops, d.target ≠ x) → exec (.silenceTimerExpiry x) s = .next { restarted with
          tx := { s.tx with drops := s.tx.drops ++ [{ target := x, reason := .silent, cls := .turn }] } }))
      ∧ (s.mship.listen = none → exec .listenTimerExpiry s = .next s)
      ∧ (s.access.holdOff = none → exec .holdOffExpiry s = .next s)
      ∧ (s.mship.presence = none → exec .presenceTimerExpiry s = .next s)
      ∧ ∀ x : Station, s.mship.silence[x] = none → exec (.silenceTimerExpiry x) s = .next s

/-- A storage upset of a cell, whatever content it leaves: status and mark stand, no other cell and no other block
changes, and a host read of the cell finds a PRESENT or STALE one DAMAGED even where the content left agrees with its
check. That the command carries the content left is log 15's form (R6, R7). -/
def Obligations.StorageUpsetFailsVerification : Prop :=
  ∀ (s : State) (c : CellIx) (v : Version) (d : CellData) (check : BitVec 16), NoneInHand s → StoreLaw s →
    ∃ t, exec (.storageUpset c v d check) s = .next t
      ∧ cellData t.mem c = d ∧ (∀ b : CellIx, b ≠ c → cellData t.mem b = cellData s.mem b)
      ∧ t.cells = s.cells.set c.val
          { version := v, check := check, status := s.cells[c].status, fresh := s.cells[c].fresh, upset := true }
      ∧ { t with mem := s.mem, cells := s.cells } = s
      ∧ (s.cells[c].status = .present ∨ s.cells[c].status = .stale → statusAfterRead t c = .damaged)
end

