-- ==== Sys2Proof/Laws/CheckPoint.lean ====
section
/-! SUPPORT. The check point of a request in hand comes before every event; with none in hand an event acts on the state as
it is. -/

namespace Sys2Proof.Machine

open Sys2Proof.Safety

/-- With no request in hand there is nothing to carry out. -/
theorem carryOut_free {s : State} (h : ∀ rq, s.port.phase ≠ .working rq) : carryOut s = s := by
  unfold carryOut
  split
  · rename_i rq e
    exact absurd e (h rq)
  · rfl
  · rfl

/-- A request in hand is carried out by its code. -/
theorem carryOut_working {s : State} {rq : Request} (h : s.port.phase = .working rq) : carryOut s = requestPoint rq s := by
  simp [carryOut, h]

/-- An event at a station with no request in hand acts on the state as it is. -/
theorem atEvent_free {s : State} (f : State → State) (h : NoneInHand s) : atEvent f s = .next (f s) := by
  obtain ⟨h1, h2⟩ := h
  simp only [Running] at h1
  simp [atEvent, running, h1, carryOut_free h2]

/-- An event at a station with a request in hand acts on the state that its check point leaves. -/
theorem atEvent_working {s : State} (f : State → State) {rq : Request} (h1 : Running s)
    (h2 : s.port.phase = .working rq) : atEvent f s = .next (f (requestPoint rq s)) := by
  simp only [Running] at h1
  simp [atEvent, running, h1, carryOut_working h2]

end Sys2Proof.Machine
end

