-- ==== Sys2Proof/Laws/Flags.lean ====
section
/-! SUPPORT. The laws of the sets of sixteen flags: what each operation makes of each flag. -/

namespace Sys2Proof.Machine

/-- One bit at place k. -/
theorem getLsbD_bitAt (k j : Fin 16) : (1#16 <<< k.val).getLsbD j.val = decide (j = k) := by
  revert j; revert k; decide

theorem flag_foldl_collect (p : Fin 16 → Bool) (l : List (Fin 16)) (f : Flags16) (j : Fin 16) :
    flag (l.foldl (fun f k => if p k then f ||| (1#16 <<< k.val) else f) f) j
      = (flag f j || l.any fun k => decide (j = k) && p k) := by
  induction l generalizing f with
  | nil => simp
  | cons a l ih =>
      rw [List.foldl_cons, ih]
      by_cases h : p a = true
      · simp only [h, if_true, List.any_cons, Bool.and_true, flag, BitVec.getLsbD_or, getLsbD_bitAt, Bool.or_assoc]
      · simp [h]

/-- The empty set holds no flag. -/
@[simp] theorem flag_zero (j : Fin 16) : flag 0#16 j = false := by simp [flag]

/-- A set read back by its membership test. -/
@[simp] theorem flag_flagsOf (p : Fin 16 → Bool) (j : Fin 16) : flag (flagsOf p) j = p j := by
  rw [flagsOf, flag_foldl_collect]
  rw [show flag (0 : Flags16) j = false from flag_zero j, Bool.false_or, Bool.eq_iff_iff, List.any_eq_true]
  constructor
  · rintro ⟨k, -, hk⟩
    simp only [Bool.and_eq_true, decide_eq_true_eq] at hk
    rw [hk.1]; exact hk.2
  · intro h
    exact ⟨j, List.mem_finRange j, by simp [h]⟩

/-- Setting flag k sets it and no other. -/
@[simp] theorem flag_flagSet (f : Flags16) (k j : Fin 16) : flag (flagSet f k) j = (flag f j || decide (j = k)) := by
  simp only [flag, flagSet, BitVec.getLsbD_or, getLsbD_bitAt]

/-- Clearing flag k clears it and no other. -/
@[simp] theorem flag_flagClear (f : Flags16) (k j : Fin 16) :
    flag (flagClear f k) j = (flag f j && decide (j ≠ k)) := by
  have h := getLsbD_bitAt k j
  simp only [flag, flagClear, BitVec.getLsbD_and, BitVec.getLsbD_not, h, j.isLt, decide_true, Bool.true_and,
    decide_not]

@[simp] theorem flag_and (f g : Flags16) (j : Fin 16) : flag (f &&& g) j = (flag f j && flag g j) := by simp [flag]

@[simp] theorem flag_not (f : Flags16) (j : Fin 16) : flag (~~~f) j = !flag f j := by
  simp [flag, j.isLt]

/-- Sets with the same flags are the same set. -/
theorem flags_ext {f g : Flags16} (h : ∀ j, flag f j = flag g j) : f = g := by
  apply BitVec.eq_of_getLsbD_eq
  intro i hi
  exact h ⟨i, hi⟩

/-- A set is empty when it holds no flag. -/
theorem flags_eq_zero_iff (f : Flags16) : f = 0 ↔ ∀ j, flag f j = false := by
  constructor
  · rintro rfl j; simp
  · intro h; exact flags_ext fun j => by rw [h j]; simp

end Sys2Proof.Machine
end

