-- ==== Sys2Proof/Laws/Line.lean ====
section
/-! SUPPORT. A byte sent in the line code is framed and assembled as that byte, so what is sent whole is heard whole. -/

namespace Sys2Proof.Machine

@[simp] theorem isFramed_lineByte (b : Byte) : isFramed (lineByte b) = true := rfl

@[simp] theorem byteOf_lineByte (b : Byte) : byteOf (lineByte b) = b := by
  revert b
  decide +kernel

/-- The bytes sent are the bytes assembled. -/
@[simp] theorem assembled_onLine (bytes : List Byte) : assembled (onLine bytes) = bytes := by
  induction bytes with
  | nil => rfl
  | cons b bytes ih =>
      simp only [assembled, onLine, List.map_cons, List.takeWhile_cons, isFramed_lineByte, if_true, byteOf_lineByte] at ih ⊢
      rw [ih]

/-- And no byte of them is unframed. -/
@[simp] theorem stoppedUnframed_onLine (bytes : List Byte) : stoppedUnframed (onLine bytes) = false := by
  simp [stoppedUnframed, onLine]

end Sys2Proof.Machine
end

