-- ==== Sys2Proof/Laws/Memory.lean ====
section
/-! SUPPORT. The laws of the cell data memory: a read after a write, and the canonical form kept by every operation. -/

namespace Sys2Proof.Machine

/-- Every address listed lies above `a`. -/
def Memory.above (a : Nat) (m : Memory) : Prop := ∀ p ∈ m, a < p.1

theorem memory_wf_nil : Memory.wf ([] : Memory) := by simp [Memory.wf]

theorem memory_wf_cons (p : Nat × Byte) (m : Memory) :
    Memory.wf (p :: m) ↔ Memory.above p.1 m ∧ p.2 ≠ 0 ∧ Memory.wf m := by
  simp only [Memory.wf, Memory.above, List.pairwise_cons, List.forall_mem_cons]
  tauto

theorem memRead_above {m : Memory} {a : Nat} (h : Memory.above a m) : memRead m a = 0 := by
  induction m with
  | nil => rfl
  | cons p m ih =>
      have h1 : a < p.1 := h p (by simp)
      have h2 : Memory.above a m := fun q hq => h q (by simp [hq])
      simp only [memRead]
      rw [if_neg (by omega), ih h2]

theorem memory_above_trans {m : Memory} {a b : Nat} (hab : a ≤ b) (h : Memory.above b m) : Memory.above a m :=
  fun p hp => lt_of_le_of_lt hab (h p hp)

/-- A write lists no address but those listed before and its own. -/
theorem mem_memWrite {m : Memory} {a : Nat} {b : Byte} {p : Nat × Byte} (h : p ∈ memWrite m a b) :
    p.1 = a ∨ p ∈ m := by
  induction m with
  | nil =>
      simp only [memWrite] at h
      split at h
      · simp at h
      · simp at h; exact .inl (by rw [h])
  | cons q m ih =>
      obtain ⟨x, c⟩ := q
      simp only [memWrite] at h
      split at h
      · split at h
        · exact .inr h
        · rcases List.mem_cons.1 h with h | h
          · exact .inl (by rw [h])
          · exact .inr h
      · split at h
        · split at h
          · exact .inr (List.mem_cons_of_mem _ h)
          · rcases List.mem_cons.1 h with h | h
            · subst h; exact .inl (by omega)
            · exact .inr (List.mem_cons_of_mem _ h)
        · rcases List.mem_cons.1 h with h | h
          · exact .inr (by rw [h]; simp)
          · rcases ih h with h | h
            · exact .inl h
            · exact .inr (List.mem_cons_of_mem _ h)

/-- A write keeps the canonical form. -/
theorem memWrite_wf {m : Memory} (a : Nat) (b : Byte) (h : Memory.wf m) : Memory.wf (memWrite m a b) := by
  induction m with
  | nil =>
      simp only [memWrite]
      split
      · exact h
      · rename_i hb; exact (memory_wf_cons _ _).2 ⟨by simp [Memory.above], hb, h⟩
  | cons q m ih =>
      obtain ⟨x, c⟩ := q
      obtain ⟨h1, h2, h3⟩ := (memory_wf_cons _ _).1 h
      simp only [memWrite]
      split
      · rename_i hax
        split
        · exact h
        · rename_i hb
          refine (memory_wf_cons _ _).2 ⟨?_, hb, h⟩
          intro p hp
          rcases List.mem_cons.1 hp with rfl | hp
          · exact hax
          · exact lt_trans hax (h1 p hp)
      · split
        · split
          · exact h3
          · rename_i hb; exact (memory_wf_cons _ _).2 ⟨h1, hb, h3⟩
        · refine (memory_wf_cons _ _).2 ⟨?_, h2, ih h3⟩
          intro p hp
          rcases mem_memWrite hp with hp | hp
          · simp only; omega
          · exact h1 p hp

/-- A read of the address written gives the byte written. -/
theorem memRead_memWrite_same {m : Memory} (a : Nat) (b : Byte) (h : Memory.wf m) :
    memRead (memWrite m a b) a = b := by
  induction m with
  | nil =>
      simp only [memWrite]
      split
      · rename_i hb; simp [memRead, hb]
      · simp [memRead]
  | cons q m ih =>
      obtain ⟨x, c⟩ := q
      obtain ⟨h1, h2, h3⟩ := (memory_wf_cons _ _).1 h
      simp only [memWrite]
      split
      · rename_i hax
        split
        · rename_i hb
          simp only [memRead]
          rw [if_neg (by omega), memRead_above (memory_above_trans (by simp only; omega) h1), hb]
        · simp [memRead]
      · split
        · rename_i hax
          subst hax
          split
          · rename_i hb; rw [memRead_above h1, hb]
          · simp [memRead]
        · simp only [memRead]
          rw [if_neg (by omega), ih h3]

/-- A write leaves every other address as it was. -/
theorem memRead_memWrite_ne (m : Memory) {a a' : Nat} (b : Byte) (hne : a' ≠ a) :
    memRead (memWrite m a b) a' = memRead m a' := by
  induction m with
  | nil =>
      simp only [memWrite]
      split
      · rfl
      · simp [memRead, hne.symm]
  | cons q m ih =>
      obtain ⟨x, c⟩ := q
      simp only [memWrite]
      split
      · split
        · rfl
        · simp only [memRead]; rw [if_neg (by omega)]
      · split
        · rename_i hax
          subst hax
          split
          · simp only [memRead]; rw [if_neg (by omega)]
          · simp only [memRead]; rw [if_neg (by omega), if_neg (by omega)]
        · simp only [memRead]; rw [ih]

/-- Bytes written from an address upward keep the canonical form. -/
theorem memWriteFrom_wf {m : Memory} (a : Nat) (bytes : List Byte) (h : Memory.wf m) :
    Memory.wf (memWriteFrom m a bytes) := by
  induction bytes generalizing m a with
  | nil => exact h
  | cons b rest ih => exact ih (a + 1) (memWrite_wf a b h)

/-- Bytes written from an address upward list no address outside their run. -/
theorem mem_memWriteFrom {m : Memory} {a : Nat} {bytes : List Byte} {p : Nat × Byte}
    (h : p ∈ memWriteFrom m a bytes) : (a ≤ p.1 ∧ p.1 < a + bytes.length) ∨ p ∈ m := by
  induction bytes generalizing m a with
  | nil => exact .inr h
  | cons b rest ih =>
      rcases ih h with h | h
      · left; simp only [List.length_cons]; omega
      · rcases mem_memWrite h with h | h
        · left; simp only [List.length_cons]; omega
        · exact .inr h

/-- A read outside the run written gives what it gave before. -/
theorem memRead_memWriteFrom_outside (m : Memory) {a a' : Nat} (bytes : List Byte)
    (h : a' < a ∨ a + bytes.length ≤ a') : memRead (memWriteFrom m a bytes) a' = memRead m a' := by
  induction bytes generalizing m a with
  | nil => rfl
  | cons b rest ih =>
      simp only [List.length_cons] at h
      simp only [memWriteFrom]
      rw [ih (memWrite m a b) (by omega), memRead_memWrite_ne m b (by omega)]

/-- A read inside the run written gives the byte written there. -/
theorem memRead_memWriteFrom_inside {m : Memory} {a i : Nat} {bytes : List Byte} (hm : Memory.wf m)
    (h : i < bytes.length) : memRead (memWriteFrom m a bytes) (a + i) = bytes[i] := by
  induction bytes generalizing m a i with
  | nil => simp at h
  | cons b rest ih =>
      simp only [memWriteFrom]
      cases i with
      | zero =>
          rw [memRead_memWriteFrom_outside _ _ (by omega)]
          simpa using memRead_memWrite_same a b hm
      | succ i =>
          have := ih (m := memWrite m a b) (a := a + 1) (i := i) (memWrite_wf a b hm) (by simpa using h)
          simpa [Nat.add_assoc, Nat.add_comm 1 i] using this

/-- A cell's data written reads back as written. -/
theorem cellData_writeCellData_same {m : Memory} (c : CellIx) (d : CellData) (hm : Memory.wf m) :
    cellData (writeCellData m c d) c = d := by
  apply Vector.ext
  intro i hi
  have h := memRead_memWriteFrom_inside (m := m) (a := cellAddress c 0) (i := i) (bytes := d.toList) hm (by simpa using hi)
  simp only [cellData, writeCellData, Vector.getElem_ofFn]
  have e : cellAddress c i = cellAddress c 0 + i := by simp [cellAddress]
  rw [e, h]
  simp

/-- A cell's data written leaves every other cell's data as they were. -/
theorem cellData_writeCellData_ne (m : Memory) {b c : CellIx} (d : CellData) (hne : b ≠ c) :
    cellData (writeCellData m c d) b = cellData m b := by
  apply Vector.ext
  intro i hi
  simp only [cellData, writeCellData, Vector.getElem_ofFn]
  apply memRead_memWriteFrom_outside
  have hbc : b.val ≠ c.val := fun h => hne (Fin.ext h)
  have : d.toList.length = 32 := by simp
  simp only [cellAddress, this]
  omega

/-- A cell's data written keep the canonical form. -/
theorem writeCellData_wf {m : Memory} (c : CellIx) (d : CellData) (hm : Memory.wf m) :
    Memory.wf (writeCellData m c d) := memWriteFrom_wf _ _ hm

/-- A cell's data written list no address outside the cell but those listed before. -/
theorem mem_writeCellData {m : Memory} {c : CellIx} {d : CellData} {p : Nat × Byte}
    (h : p ∈ writeCellData m c d) : (32 * c.val ≤ p.1 ∧ p.1 < 32 * c.val + 32) ∨ p ∈ m := by
  have := mem_memWriteFrom h
  simpa [cellAddress] using this

/-- The memory of the reset state is in canonical form. -/
theorem reset_memory_wf : Memory.wf State.reset.mem := by simp [State.reset, Memory.wf]

end Sys2Proof.Machine
end

