-- ==== Sys2Proof/Laws/State.lean ====
section
/-! SUPPORT. One lemma per block and per update of State, each true by rfl, so that no proof unfolds a record
update. -/

namespace Sys2Proof.Machine

section withPending
variable (s : State) (x : List Instr)
@[simp] theorem State.withPending_pending : (s.withPending x).pending = x := rfl
@[simp] theorem State.withPending_straps : (s.withPending x).straps = s.straps := rfl
@[simp] theorem State.withPending_mem : (s.withPending x).mem = s.mem := rfl
@[simp] theorem State.withPending_cells : (s.withPending x).cells = s.cells := rfl
@[simp] theorem State.withPending_apply : (s.withPending x).apply = s.apply := rfl
@[simp] theorem State.withPending_locks : (s.withPending x).locks = s.locks := rfl
@[simp] theorem State.withPending_mship : (s.withPending x).mship = s.mship := rfl
@[simp] theorem State.withPending_sponsor : (s.withPending x).sponsor = s.sponsor := rfl
@[simp] theorem State.withPending_bundle : (s.withPending x).bundle = s.bundle := rfl
@[simp] theorem State.withPending_mend : (s.withPending x).mend = s.mend := rfl
@[simp] theorem State.withPending_port : (s.withPending x).port = s.port := rfl
@[simp] theorem State.withPending_bus : (s.withPending x).bus = s.bus := rfl
@[simp] theorem State.withPending_access : (s.withPending x).access = s.access := rfl
@[simp] theorem State.withPending_tx : (s.withPending x).tx = s.tx := rfl
end withPending

section withStraps
variable (s : State) (x : Straps)
@[simp] theorem State.withStraps_pending : (s.withStraps x).pending = s.pending := rfl
@[simp] theorem State.withStraps_straps : (s.withStraps x).straps = x := rfl
@[simp] theorem State.withStraps_mem : (s.withStraps x).mem = s.mem := rfl
@[simp] theorem State.withStraps_cells : (s.withStraps x).cells = s.cells := rfl
@[simp] theorem State.withStraps_apply : (s.withStraps x).apply = s.apply := rfl
@[simp] theorem State.withStraps_locks : (s.withStraps x).locks = s.locks := rfl
@[simp] theorem State.withStraps_mship : (s.withStraps x).mship = s.mship := rfl
@[simp] theorem State.withStraps_sponsor : (s.withStraps x).sponsor = s.sponsor := rfl
@[simp] theorem State.withStraps_bundle : (s.withStraps x).bundle = s.bundle := rfl
@[simp] theorem State.withStraps_mend : (s.withStraps x).mend = s.mend := rfl
@[simp] theorem State.withStraps_port : (s.withStraps x).port = s.port := rfl
@[simp] theorem State.withStraps_bus : (s.withStraps x).bus = s.bus := rfl
@[simp] theorem State.withStraps_access : (s.withStraps x).access = s.access := rfl
@[simp] theorem State.withStraps_tx : (s.withStraps x).tx = s.tx := rfl
end withStraps

section withMem
variable (s : State) (x : Memory)
@[simp] theorem State.withMem_pending : (s.withMem x).pending = s.pending := rfl
@[simp] theorem State.withMem_straps : (s.withMem x).straps = s.straps := rfl
@[simp] theorem State.withMem_mem : (s.withMem x).mem = x := rfl
@[simp] theorem State.withMem_cells : (s.withMem x).cells = s.cells := rfl
@[simp] theorem State.withMem_apply : (s.withMem x).apply = s.apply := rfl
@[simp] theorem State.withMem_locks : (s.withMem x).locks = s.locks := rfl
@[simp] theorem State.withMem_mship : (s.withMem x).mship = s.mship := rfl
@[simp] theorem State.withMem_sponsor : (s.withMem x).sponsor = s.sponsor := rfl
@[simp] theorem State.withMem_bundle : (s.withMem x).bundle = s.bundle := rfl
@[simp] theorem State.withMem_mend : (s.withMem x).mend = s.mend := rfl
@[simp] theorem State.withMem_port : (s.withMem x).port = s.port := rfl
@[simp] theorem State.withMem_bus : (s.withMem x).bus = s.bus := rfl
@[simp] theorem State.withMem_access : (s.withMem x).access = s.access := rfl
@[simp] theorem State.withMem_tx : (s.withMem x).tx = s.tx := rfl
end withMem

section withCells
variable (s : State) (x : Vector CellRec 256)
@[simp] theorem State.withCells_pending : (s.withCells x).pending = s.pending := rfl
@[simp] theorem State.withCells_straps : (s.withCells x).straps = s.straps := rfl
@[simp] theorem State.withCells_mem : (s.withCells x).mem = s.mem := rfl
@[simp] theorem State.withCells_cells : (s.withCells x).cells = x := rfl
@[simp] theorem State.withCells_apply : (s.withCells x).apply = s.apply := rfl
@[simp] theorem State.withCells_locks : (s.withCells x).locks = s.locks := rfl
@[simp] theorem State.withCells_mship : (s.withCells x).mship = s.mship := rfl
@[simp] theorem State.withCells_sponsor : (s.withCells x).sponsor = s.sponsor := rfl
@[simp] theorem State.withCells_bundle : (s.withCells x).bundle = s.bundle := rfl
@[simp] theorem State.withCells_mend : (s.withCells x).mend = s.mend := rfl
@[simp] theorem State.withCells_port : (s.withCells x).port = s.port := rfl
@[simp] theorem State.withCells_bus : (s.withCells x).bus = s.bus := rfl
@[simp] theorem State.withCells_access : (s.withCells x).access = s.access := rfl
@[simp] theorem State.withCells_tx : (s.withCells x).tx = s.tx := rfl
end withCells

section withApply
variable (s : State) (x : ApplyUnit)
@[simp] theorem State.withApply_pending : (s.withApply x).pending = s.pending := rfl
@[simp] theorem State.withApply_straps : (s.withApply x).straps = s.straps := rfl
@[simp] theorem State.withApply_mem : (s.withApply x).mem = s.mem := rfl
@[simp] theorem State.withApply_cells : (s.withApply x).cells = s.cells := rfl
@[simp] theorem State.withApply_apply : (s.withApply x).apply = x := rfl
@[simp] theorem State.withApply_locks : (s.withApply x).locks = s.locks := rfl
@[simp] theorem State.withApply_mship : (s.withApply x).mship = s.mship := rfl
@[simp] theorem State.withApply_sponsor : (s.withApply x).sponsor = s.sponsor := rfl
@[simp] theorem State.withApply_bundle : (s.withApply x).bundle = s.bundle := rfl
@[simp] theorem State.withApply_mend : (s.withApply x).mend = s.mend := rfl
@[simp] theorem State.withApply_port : (s.withApply x).port = s.port := rfl
@[simp] theorem State.withApply_bus : (s.withApply x).bus = s.bus := rfl
@[simp] theorem State.withApply_access : (s.withApply x).access = s.access := rfl
@[simp] theorem State.withApply_tx : (s.withApply x).tx = s.tx := rfl
end withApply

section withLocks
variable (s : State) (x : Vector RegionEntry 16)
@[simp] theorem State.withLocks_pending : (s.withLocks x).pending = s.pending := rfl
@[simp] theorem State.withLocks_straps : (s.withLocks x).straps = s.straps := rfl
@[simp] theorem State.withLocks_mem : (s.withLocks x).mem = s.mem := rfl
@[simp] theorem State.withLocks_cells : (s.withLocks x).cells = s.cells := rfl
@[simp] theorem State.withLocks_apply : (s.withLocks x).apply = s.apply := rfl
@[simp] theorem State.withLocks_locks : (s.withLocks x).locks = x := rfl
@[simp] theorem State.withLocks_mship : (s.withLocks x).mship = s.mship := rfl
@[simp] theorem State.withLocks_sponsor : (s.withLocks x).sponsor = s.sponsor := rfl
@[simp] theorem State.withLocks_bundle : (s.withLocks x).bundle = s.bundle := rfl
@[simp] theorem State.withLocks_mend : (s.withLocks x).mend = s.mend := rfl
@[simp] theorem State.withLocks_port : (s.withLocks x).port = s.port := rfl
@[simp] theorem State.withLocks_bus : (s.withLocks x).bus = s.bus := rfl
@[simp] theorem State.withLocks_access : (s.withLocks x).access = s.access := rfl
@[simp] theorem State.withLocks_tx : (s.withLocks x).tx = s.tx := rfl
end withLocks

section withMship
variable (s : State) (x : Membership)
@[simp] theorem State.withMship_pending : (s.withMship x).pending = s.pending := rfl
@[simp] theorem State.withMship_straps : (s.withMship x).straps = s.straps := rfl
@[simp] theorem State.withMship_mem : (s.withMship x).mem = s.mem := rfl
@[simp] theorem State.withMship_cells : (s.withMship x).cells = s.cells := rfl
@[simp] theorem State.withMship_apply : (s.withMship x).apply = s.apply := rfl
@[simp] theorem State.withMship_locks : (s.withMship x).locks = s.locks := rfl
@[simp] theorem State.withMship_mship : (s.withMship x).mship = x := rfl
@[simp] theorem State.withMship_sponsor : (s.withMship x).sponsor = s.sponsor := rfl
@[simp] theorem State.withMship_bundle : (s.withMship x).bundle = s.bundle := rfl
@[simp] theorem State.withMship_mend : (s.withMship x).mend = s.mend := rfl
@[simp] theorem State.withMship_port : (s.withMship x).port = s.port := rfl
@[simp] theorem State.withMship_bus : (s.withMship x).bus = s.bus := rfl
@[simp] theorem State.withMship_access : (s.withMship x).access = s.access := rfl
@[simp] theorem State.withMship_tx : (s.withMship x).tx = s.tx := rfl
end withMship

section withSponsor
variable (s : State) (x : SponsorUnit)
@[simp] theorem State.withSponsor_pending : (s.withSponsor x).pending = s.pending := rfl
@[simp] theorem State.withSponsor_straps : (s.withSponsor x).straps = s.straps := rfl
@[simp] theorem State.withSponsor_mem : (s.withSponsor x).mem = s.mem := rfl
@[simp] theorem State.withSponsor_cells : (s.withSponsor x).cells = s.cells := rfl
@[simp] theorem State.withSponsor_apply : (s.withSponsor x).apply = s.apply := rfl
@[simp] theorem State.withSponsor_locks : (s.withSponsor x).locks = s.locks := rfl
@[simp] theorem State.withSponsor_mship : (s.withSponsor x).mship = s.mship := rfl
@[simp] theorem State.withSponsor_sponsor : (s.withSponsor x).sponsor = x := rfl
@[simp] theorem State.withSponsor_bundle : (s.withSponsor x).bundle = s.bundle := rfl
@[simp] theorem State.withSponsor_mend : (s.withSponsor x).mend = s.mend := rfl
@[simp] theorem State.withSponsor_port : (s.withSponsor x).port = s.port := rfl
@[simp] theorem State.withSponsor_bus : (s.withSponsor x).bus = s.bus := rfl
@[simp] theorem State.withSponsor_access : (s.withSponsor x).access = s.access := rfl
@[simp] theorem State.withSponsor_tx : (s.withSponsor x).tx = s.tx := rfl
end withSponsor

section withBundle
variable (s : State) (x : BundleUnit)
@[simp] theorem State.withBundle_pending : (s.withBundle x).pending = s.pending := rfl
@[simp] theorem State.withBundle_straps : (s.withBundle x).straps = s.straps := rfl
@[simp] theorem State.withBundle_mem : (s.withBundle x).mem = s.mem := rfl
@[simp] theorem State.withBundle_cells : (s.withBundle x).cells = s.cells := rfl
@[simp] theorem State.withBundle_apply : (s.withBundle x).apply = s.apply := rfl
@[simp] theorem State.withBundle_locks : (s.withBundle x).locks = s.locks := rfl
@[simp] theorem State.withBundle_mship : (s.withBundle x).mship = s.mship := rfl
@[simp] theorem State.withBundle_sponsor : (s.withBundle x).sponsor = s.sponsor := rfl
@[simp] theorem State.withBundle_bundle : (s.withBundle x).bundle = x := rfl
@[simp] theorem State.withBundle_mend : (s.withBundle x).mend = s.mend := rfl
@[simp] theorem State.withBundle_port : (s.withBundle x).port = s.port := rfl
@[simp] theorem State.withBundle_bus : (s.withBundle x).bus = s.bus := rfl
@[simp] theorem State.withBundle_access : (s.withBundle x).access = s.access := rfl
@[simp] theorem State.withBundle_tx : (s.withBundle x).tx = s.tx := rfl
end withBundle

section withMend
variable (s : State) (x : MendUnit)
@[simp] theorem State.withMend_pending : (s.withMend x).pending = s.pending := rfl
@[simp] theorem State.withMend_straps : (s.withMend x).straps = s.straps := rfl
@[simp] theorem State.withMend_mem : (s.withMend x).mem = s.mem := rfl
@[simp] theorem State.withMend_cells : (s.withMend x).cells = s.cells := rfl
@[simp] theorem State.withMend_apply : (s.withMend x).apply = s.apply := rfl
@[simp] theorem State.withMend_locks : (s.withMend x).locks = s.locks := rfl
@[simp] theorem State.withMend_mship : (s.withMend x).mship = s.mship := rfl
@[simp] theorem State.withMend_sponsor : (s.withMend x).sponsor = s.sponsor := rfl
@[simp] theorem State.withMend_bundle : (s.withMend x).bundle = s.bundle := rfl
@[simp] theorem State.withMend_mend : (s.withMend x).mend = x := rfl
@[simp] theorem State.withMend_port : (s.withMend x).port = s.port := rfl
@[simp] theorem State.withMend_bus : (s.withMend x).bus = s.bus := rfl
@[simp] theorem State.withMend_access : (s.withMend x).access = s.access := rfl
@[simp] theorem State.withMend_tx : (s.withMend x).tx = s.tx := rfl
end withMend

section withPort
variable (s : State) (x : HostPort)
@[simp] theorem State.withPort_pending : (s.withPort x).pending = s.pending := rfl
@[simp] theorem State.withPort_straps : (s.withPort x).straps = s.straps := rfl
@[simp] theorem State.withPort_mem : (s.withPort x).mem = s.mem := rfl
@[simp] theorem State.withPort_cells : (s.withPort x).cells = s.cells := rfl
@[simp] theorem State.withPort_apply : (s.withPort x).apply = s.apply := rfl
@[simp] theorem State.withPort_locks : (s.withPort x).locks = s.locks := rfl
@[simp] theorem State.withPort_mship : (s.withPort x).mship = s.mship := rfl
@[simp] theorem State.withPort_sponsor : (s.withPort x).sponsor = s.sponsor := rfl
@[simp] theorem State.withPort_bundle : (s.withPort x).bundle = s.bundle := rfl
@[simp] theorem State.withPort_mend : (s.withPort x).mend = s.mend := rfl
@[simp] theorem State.withPort_port : (s.withPort x).port = x := rfl
@[simp] theorem State.withPort_bus : (s.withPort x).bus = s.bus := rfl
@[simp] theorem State.withPort_access : (s.withPort x).access = s.access := rfl
@[simp] theorem State.withPort_tx : (s.withPort x).tx = s.tx := rfl
end withPort

section withBus
variable (s : State) (x : BusInterface)
@[simp] theorem State.withBus_pending : (s.withBus x).pending = s.pending := rfl
@[simp] theorem State.withBus_straps : (s.withBus x).straps = s.straps := rfl
@[simp] theorem State.withBus_mem : (s.withBus x).mem = s.mem := rfl
@[simp] theorem State.withBus_cells : (s.withBus x).cells = s.cells := rfl
@[simp] theorem State.withBus_apply : (s.withBus x).apply = s.apply := rfl
@[simp] theorem State.withBus_locks : (s.withBus x).locks = s.locks := rfl
@[simp] theorem State.withBus_mship : (s.withBus x).mship = s.mship := rfl
@[simp] theorem State.withBus_sponsor : (s.withBus x).sponsor = s.sponsor := rfl
@[simp] theorem State.withBus_bundle : (s.withBus x).bundle = s.bundle := rfl
@[simp] theorem State.withBus_mend : (s.withBus x).mend = s.mend := rfl
@[simp] theorem State.withBus_port : (s.withBus x).port = s.port := rfl
@[simp] theorem State.withBus_bus : (s.withBus x).bus = x := rfl
@[simp] theorem State.withBus_access : (s.withBus x).access = s.access := rfl
@[simp] theorem State.withBus_tx : (s.withBus x).tx = s.tx := rfl
end withBus

section withAccess
variable (s : State) (x : AccessTimer)
@[simp] theorem State.withAccess_pending : (s.withAccess x).pending = s.pending := rfl
@[simp] theorem State.withAccess_straps : (s.withAccess x).straps = s.straps := rfl
@[simp] theorem State.withAccess_mem : (s.withAccess x).mem = s.mem := rfl
@[simp] theorem State.withAccess_cells : (s.withAccess x).cells = s.cells := rfl
@[simp] theorem State.withAccess_apply : (s.withAccess x).apply = s.apply := rfl
@[simp] theorem State.withAccess_locks : (s.withAccess x).locks = s.locks := rfl
@[simp] theorem State.withAccess_mship : (s.withAccess x).mship = s.mship := rfl
@[simp] theorem State.withAccess_sponsor : (s.withAccess x).sponsor = s.sponsor := rfl
@[simp] theorem State.withAccess_bundle : (s.withAccess x).bundle = s.bundle := rfl
@[simp] theorem State.withAccess_mend : (s.withAccess x).mend = s.mend := rfl
@[simp] theorem State.withAccess_port : (s.withAccess x).port = s.port := rfl
@[simp] theorem State.withAccess_bus : (s.withAccess x).bus = s.bus := rfl
@[simp] theorem State.withAccess_access : (s.withAccess x).access = x := rfl
@[simp] theorem State.withAccess_tx : (s.withAccess x).tx = s.tx := rfl
end withAccess

section withTx
variable (s : State) (x : Transmit)
@[simp] theorem State.withTx_pending : (s.withTx x).pending = s.pending := rfl
@[simp] theorem State.withTx_straps : (s.withTx x).straps = s.straps := rfl
@[simp] theorem State.withTx_mem : (s.withTx x).mem = s.mem := rfl
@[simp] theorem State.withTx_cells : (s.withTx x).cells = s.cells := rfl
@[simp] theorem State.withTx_apply : (s.withTx x).apply = s.apply := rfl
@[simp] theorem State.withTx_locks : (s.withTx x).locks = s.locks := rfl
@[simp] theorem State.withTx_mship : (s.withTx x).mship = s.mship := rfl
@[simp] theorem State.withTx_sponsor : (s.withTx x).sponsor = s.sponsor := rfl
@[simp] theorem State.withTx_bundle : (s.withTx x).bundle = s.bundle := rfl
@[simp] theorem State.withTx_mend : (s.withTx x).mend = s.mend := rfl
@[simp] theorem State.withTx_port : (s.withTx x).port = s.port := rfl
@[simp] theorem State.withTx_bus : (s.withTx x).bus = s.bus := rfl
@[simp] theorem State.withTx_access : (s.withTx x).access = s.access := rfl
@[simp] theorem State.withTx_tx : (s.withTx x).tx = x := rfl
end withTx

end Sys2Proof.Machine
end

