-- ==== Sys2Proof/Laws/Ops.lean ====
section
/-! SUPPORT. What each shared operation can do, said once: the block it changes and how. -/

namespace Sys2Proof.Machine

/-! ### The Request Table and the notice queue -/

/-- A notice that finds room stands at the queue's tail. -/
theorem postNotice_room {n : Notice} {s : State} (h : roomFree s.port = true) :
    postNotice n s = s.withPort { s.port with notices := s.port.notices ++ [n] } := by
  simp [postNotice, h]

/-- A notice that finds no room is dropped. -/
theorem postNotice_full {n : Notice} {s : State} (h : roomFree s.port = false) :
    postNotice n s = s.withPort { s.port with noticesDropped := true } := by
  simp [postNotice, h]

/-- Posting a notice changes the port's queue and mark alone. -/
theorem postNotice_changes (n : Notice) (s : State) :
    ∃ p, postNotice n s = s.withPort p ∧ p.tickets = s.port.tickets ∧ p.order = s.port.order ∧ p.phase = s.port.phase
      ∧ p.watch = s.port.watch ∧ p.refusedLast = s.port.refusedLast ∧ p.sdo = s.port.sdo
      ∧ (p.notices = s.port.notices ++ [n] ∧ p.noticesDropped = s.port.noticesDropped
        ∨ p.notices = s.port.notices ∧ p.noticesDropped = true) := by
  cases h : roomFree s.port
  · exact ⟨_, postNotice_full h, rfl, rfl, rfl, rfl, rfl, rfl, .inr ⟨rfl, rfl⟩⟩
  · exact ⟨_, postNotice_room h, rfl, rfl, rfl, rfl, rfl, rfl, .inl ⟨rfl, rfl⟩⟩

/-- The completion of a live ticket: DONE, with its notice at the tail. -/
theorem complete_live {k : TicketNo} {o : Completion} {s : State} {t : Ticket} (h : s.port.tickets[k] = some t)
    (hl : t.state ≠ .done) :
    complete k o s = s.withPort { s.port with
      tickets := s.port.tickets.set k.val (some { t with state := .done })
      notices := s.port.notices ++ [.completion k t.kind o] } := by
  simp only [complete, h]
  rw [if_pos (by simp [ticketLive, hl])]

/-- A free ticket, and one that is DONE, are left as they are. -/
theorem complete_other {k : TicketNo} {o : Completion} {s : State}
    (h : ∀ t, s.port.tickets[k] = some t → t.state = .done) : complete k o s = s := by
  unfold complete
  split
  · rename_i t ht
    rw [if_neg (by simp [ticketLive, h t ht])]
  · rfl

/-- A completion changes the port alone. -/
theorem complete_port (k : TicketNo) (o : Completion) (s : State) : ∃ p, complete k o s = s.withPort p := by
  unfold complete
  split
  · split
    · exact ⟨_, rfl⟩
    · exact ⟨s.port, rfl⟩
  · exact ⟨s.port, rfl⟩

/-- A list of completions changes the port alone. -/
theorem completeAll_port (ks : List TicketNo) (o : Completion) (s : State) : ∃ p, completeAll ks o s = s.withPort p := by
  induction ks generalizing s with
  | nil => exact ⟨s.port, rfl⟩
  | cons k ks ih =>
      obtain ⟨p, hp⟩ := complete_port k o s
      obtain ⟨q, hq⟩ := ih (complete k o s)
      exact ⟨q, by rw [show completeAll (k :: ks) o s = completeAll ks o (complete k o s) from rfl, hq, hp]; rfl⟩

/-- A live ticket moves to another state. -/
theorem advanceTicket_live {k : TicketNo} {st : TicketState} {s : State} {t : Ticket}
    (h : s.port.tickets[k] = some t) (hl : t.state ≠ .done) :
    advanceTicket k st s = s.withPort { s.port with
      tickets := s.port.tickets.set k.val (some { t with state := st }) } := by
  simp only [advanceTicket, h]
  rw [if_pos (by simp [ticketLive, hl])]

/-- A ticket's advance changes the port alone. -/
theorem advanceTicket_port (k : TicketNo) (st : TicketState) (s : State) : ∃ p, advanceTicket k st s = s.withPort p := by
  unfold advanceTicket
  split
  · split
    · exact ⟨_, rfl⟩
    · exact ⟨s.port, rfl⟩
  · exact ⟨s.port, rfl⟩

/-- A region's completion changes the port alone. -/
theorem completeFor_port (kind : RequestKind) (r : Region) (o : Completion) (s : State) :
    ∃ p, completeFor kind r o s = s.withPort p := by
  unfold completeFor
  split
  · exact complete_port _ _ _
  · exact ⟨s.port, rfl⟩

/-- A CHANGED report changes the port alone. -/
theorem postChanged_port (r : Region) (w : Station) (s : State) : ∃ p, postChanged r w s = s.withPort p := by
  unfold postChanged
  split
  · exact ⟨_, rfl⟩
  · obtain ⟨p, hp, -⟩ := postNotice_changes (.changed r w false) s
    exact ⟨p, hp⟩

/-- The live ticket found is live and passes the test. -/
theorem findLive_some {p : HostPort} {q : Ticket → Bool} {k : TicketNo} (h : findLive p q = some k) :
    ∃ t, p.tickets[k] = some t ∧ t.state ≠ .done ∧ q t = true := by
  have h' := List.find?_some h
  revert h'
  cases e : p.tickets[k] with
  | none => simp
  | some t =>
      intro h'
      simp only [Bool.and_eq_true] at h'
      exact ⟨t, rfl, by simpa [ticketLive] using h'.1, h'.2⟩

/-- No live ticket is found only where none passes the test. -/
theorem findLive_none {p : HostPort} {q : Ticket → Bool} (h : findLive p q = none) (k : TicketNo) (t : Ticket)
    (ht : p.tickets[k] = some t) (hl : t.state ≠ .done) : q t = false := by
  have h' := List.find?_eq_none.1 h k (List.mem_finRange k)
  simp only [ht, Bool.and_eq_true, not_and, Bool.not_eq_true] at h'
  exact h' (by simp [ticketLive, hl])

/-- The one live ticket that passes the test is the one found. -/
theorem findLive_eq {p : HostPort} {q : Ticket → Bool} {k : TicketNo} {t : Ticket} (ht : p.tickets[k] = some t)
    (hl : t.state ≠ .done) (hq : q t = true)
    (hu : ∀ j u, p.tickets[j] = some u → u.state ≠ .done → q u = true → j = k) : findLive p q = some k := by
  cases e : findLive p q with
  | none => rw [findLive_none e k t ht hl] at hq; simp at hq
  | some j =>
      obtain ⟨u, h1, h2, h3⟩ := findLive_some e
      rw [hu j u h1 h2 h3]

/-- The ticket that will be issued: free, the lowest such, with room for its completion. -/
theorem issuable_eq_some_iff (p : HostPort) (k : TicketNo) :
    issuable p = some k ↔ p.tickets[k] = none ∧ (∀ j, j < k → p.tickets[j] ≠ none) ∧ p.notices.length + reserved p < 32 := by
  unfold issuable roomFree freeTicket
  by_cases hr : p.notices.length + reserved p < Config.noticeCapacity
  · have hr' : p.notices.length + reserved p < 32 := hr
    simp only [hr, decide_true, if_true, hr', and_true]
    rw [List.find?_eq_some_iff_append]
    constructor
    · rintro ⟨h1, as, bs, h2, h3⟩
      refine ⟨by simpa using h1, fun j hj e => ?_⟩
      have hmem : j ∈ as := by
        have hs : (List.finRange 16).Pairwise (· < ·) := List.pairwise_lt_finRange 16
        have hj' : j ∈ as ++ k :: bs := h2 ▸ List.mem_finRange j
        rw [h2] at hs
        rcases List.mem_append.1 hj' with h | h
        · exact h
        · rcases List.mem_cons.1 h with h | h
          · subst h; exact absurd hj (lt_irrefl _)
          · have := (List.pairwise_cons.1 (List.pairwise_append.1 hs).2.1).1 j h
            exact absurd (lt_trans hj this) (lt_irrefl _)
      have := h3 j hmem
      simp [e] at this
    · rintro ⟨h1, h2⟩
      obtain ⟨as, bs, e⟩ := List.append_of_mem (List.mem_finRange k)
      refine ⟨by simp [h1], as, bs, e, fun j hj => ?_⟩
      have hs : (List.finRange 16).Pairwise (· < ·) := List.pairwise_lt_finRange 16
      rw [e] at hs
      have hlt := (List.pairwise_append.1 hs).2.2 j hj k (by simp)
      have := h2 j hlt
      cases h : p.tickets[j] with
      | none => exact absurd h this
      | some t => simp
  · have hr' : ¬ p.notices.length + reserved p < 32 := hr
    simp [hr, hr']

/-! ### Cells -/

@[simp] theorem setCell_mem (c : CellIx) (r : CellRec) (s : State) : (setCell c r s).mem = s.mem := rfl

/-- A cell written: its record, and no other cell's. -/
theorem writeCell_cells (c : CellIx) (v : Version) (d : CellData) (m : Bool) (s : State) :
    (writeCell c v d m s).cells
      = s.cells.set c.val { version := v, check := cellCheck v d, status := .present, fresh := m, upset := false } := rfl

theorem writeCell_mem (c : CellIx) (v : Version) (d : CellData) (m : Bool) (s : State) :
    (writeCell c v d m s).mem = writeCellData s.mem c d := rfl

/-- A cell write changes the Store alone. -/
theorem writeCell_store (c : CellIx) (v : Version) (d : CellData) (m : Bool) (s : State) :
    writeCell c v d m s = (s.withMem (writeCell c v d m s).mem).withCells (writeCell c v d m s).cells := rfl

/-! ### Departure -/

/-- The notices of a departure change the port alone. -/
theorem departNotices_port (r : DepartReason) (s : State) : ∃ p, departNotices r s = s.withPort p := by
  obtain ⟨p, hp⟩ := completeAll_port (ticketsIn s.port (· != .done)) .lost s
  obtain ⟨q, hq, -⟩ := postNotice_changes (.leftGroup r) (s.withPort p)
  exact ⟨q, by rw [departNotices, hp, hq]; rfl⟩

/-- What a departure leaves, the port's completions and notice apart. -/
theorem depart_eq (r : DepartReason) (s : State) :
    depart r s = { s with
      port := (departNotices r s).port
      cells := s.cells.map departCell
      apply := { doubt := .clear, foreign := 0, staging := none }
      locks := Vector.replicate 16 freeRegion
      mship := departMembership r s.mship
      sponsor := { joiners := [], cursor := 0 }
      bundle := { draft := [], outgoing := none }
      mend := { cells := [], current := none }
      tx := departTransmit (rejoins r s.mship) s.tx } := by
  obtain ⟨p, hp⟩ := departNotices_port r s
  simp [depart, hp, State.withPort]

/-! ### Mends -/

/-- Mends begun change the Mend Unit, the MEND slot and the notices alone. -/
theorem beginFrom_changes (cs : List CellIx) (s : State) :
    ∃ p m t, beginFrom cs s = ((s.withPort p).withMend m).withTx { s.tx with mend := t } := by
  induction cs generalizing s with
  | nil => exact ⟨s.port, { cells := [], current := none }, s.tx.mend, rfl⟩
  | cons c rest ih =>
      unfold beginFrom
      split
      · exact ⟨s.port, _, _, rfl⟩
      · obtain ⟨p, hp, -⟩ := postNotice_changes (.cellLost c) s
        obtain ⟨p', m, t, h⟩ := ih (postNotice (.cellLost c) s)
        exact ⟨p', m, t, by rw [h, hp]; rfl⟩

theorem beginMend_changes (s : State) :
    ∃ p m t, beginMend s = ((s.withPort p).withMend m).withTx { s.tx with mend := t } := by
  unfold beginMend
  split
  · exact beginFrom_changes _ _
  · exact ⟨s.port, s.mend, s.tx.mend, rfl⟩

/-- A new attempt changes the Mend Unit, the MEND slot and the notices alone. -/
theorem attemptMend_changes (s : State) :
    ∃ p m t, attemptMend s = ((s.withPort p).withMend m).withTx { s.tx with mend := t } := by
  unfold attemptMend
  split
  · rename_i m c rest _ _
    split
    · split
      · exact ⟨s.port, _, _, rfl⟩
      · obtain ⟨p, hp, -⟩ := postNotice_changes (.cellLost c) (endMend s)
        obtain ⟨p', m', t, h⟩ := beginMend_changes (postNotice (.cellLost c) (endMend s))
        exact ⟨p', m', t, by rw [h, hp]; rfl⟩
    · exact ⟨s.port, _, _, rfl⟩
  · exact ⟨s.port, s.mend, s.tx.mend, rfl⟩

/-! ### Locks -/

/-- Grants change the port alone. -/
theorem completeGrants_port (before : Vector RegionEntry 16) (s : State) :
    ∃ p, completeGrants before s = s.withPort p := by
  unfold completeGrants
  generalize grantedSince before s = rs
  induction rs generalizing s with
  | nil => exact ⟨s.port, rfl⟩
  | cons r rs ih =>
      obtain ⟨p, hp⟩ := completeFor_port .claim r .granted s
      obtain ⟨q, hq⟩ := ih (completeFor .claim r .granted s)
      exact ⟨q, by rw [List.foldl_cons, hq, hp]; rfl⟩

/-- A station's removal from every region changes the Lock Table and the port alone. -/
theorem releaseLocks_changes (x : Station) (s : State) :
    ∃ p, releaseLocks x s = (s.withLocks (s.locks.map (yieldEntry x))).withPort p := completeGrants_port _ _

end Sys2Proof.Machine
end

