-- ==== Sys2Proof/Laws/Frames.lean ====
section
/-! SUPPORT. The path of a good frame of a peer: from its command to the effect of its kind on the state that every
applied frame leaves. -/

namespace Sys2Proof.Machine

open Sys2Proof.Safety

/-- A frame's command is the carrier end of the frame, the check point of a request in hand going before it. -/
theorem exec_frameCommand (f : Frame) (s : State) : exec (frameCommand f) s = atEvent (carrierEnd f) s := by
  obtain ⟨h, b⟩ := f
  cases b <;> rfl

/-- The bytes of a frame in the buffer and the record, its header check passed. -/
def hearing (f : Frame) (s : State) : State :=
  s.withBus { s.bus with
    buffer := (frameBytes f).take 329
    record := { startMark := true, framed := (frameBytes f).length, unframed := false
                header := headerVerdict (frameBytes f) } }

/-- A frame heard is handed to the Apply Unit as a good frame, and the ack window follows. -/
theorem exec_heard {s : State} {f : Frame} (h : Hears s f) :
    let r := handlePeer f (meetListening (setReference (some f.head.sender) (hearing f s)))
    exec (frameCommand f) s = .next (enterAckWindow r.2 .heard r.1) := by
  obtain ⟨h1, h2, h3⟩ := h
  rw [exec_frameCommand, atEvent_free _ h1]
  have hc : carrierEnd f s
      = heardEnd true (onLine (frameBytes f)) (classOfFrame (self s) true f) s := by
    rcases h3 with h3 | ⟨h3, h4⟩
    · simp [carrierEnd, h3]
    · simp [carrierEnd, h3, h4]
  have hcls : classOfFrame (self s) true f = .good f := by simp [classOfFrame, self, h2]
  simp only [hc, hcls, heardEnd, handFrame, recordHeard, if_true, hearing, Config.maxFrameBytes, assembled_onLine,
    stoppedUnframed_onLine]

/-- The header of a frame's own bytes passes its check. -/
theorem headerVerdict_frameBytes (f : Frame) : headerVerdict (frameBytes f) = .passes := by
  simp [frameBytes, headerBytes, wordBytes, headerVerdict]

/-- What hearing a good frame changes before the Apply Unit handles it, past UNCONFIGURED. -/
def heardState (f : Frame) (s : State) : State :=
  { hearing f s with
    access := { s.access with reference := some f.head.sender }
    mship := { s.mship with listening := true, listen := none } }

theorem meetListening_hearing {s : State} (f : Frame) (h : s.mship.state ≠ .unconfigured) :
    meetListening (setReference (some f.head.sender) (hearing f s)) = heardState f s := by
  have h' : (setReference (some f.head.sender) (hearing f s)).mship.state ≠ .unconfigured := h
  rw [meetListening, if_neg h']
  rfl

/-- The bus of `heardState`, entering its ack window with the decision given, is the bus that `busAfter` names. -/
theorem enterAckWindow_hearing (f : Frame) (b : Bool) (s : State) :
    (enterAckWindow b .heard (hearing f s)).bus = busAfter f b s.bus := by
  simp [enterAckWindow, hearing, busAfter, headerVerdict_frameBytes]

/-- A table holder is past UNCONFIGURED. -/
theorem holder_configured {st : StationState} (h : isHolder st = true) : st ≠ .unconfigured := by
  rintro rfl
  exact absurd h (by decide)

/-- A good frame of a peer at a table holder is handled by the rules of a table holder. -/
theorem handlePeer_holder {f : Frame} {s : State} (h : isHolder s.mship.state = true) :
    handlePeer f s = handleAtHolder f s := by
  unfold handlePeer
  revert h
  cases s.mship.state <;> simp [isHolder]

/-- No known doubt: the frame goes on. -/
theorem resolveDoubt_free {f : Frame} {s : State} (h : ∀ x q, s.apply.doubt ≠ .known x q) :
    resolveDoubt f s = .goOn := by
  unfold resolveDoubt
  split
  · rfl
  · rfl
  · rename_i x q e
    exact absurd e (h x q)

/-- The frame that follows the last one of its sender is applied. -/
theorem checkSeq_next {f : Frame} {s : State} (h : f.head.seq = s.mship.table[f.head.sender].lastSeq + 1) :
    checkSeq f s = .applied := by
  have hne : ∀ q : Seq, q + 1 ≠ q := by decide
  unfold checkSeq
  split
  · rw [if_neg]
    rintro ⟨-, -, e⟩
    exact hne _ (h.symm.trans e)
  · simp [h]

/-- The staging put back as it stands. -/
theorem setStaging_self {s : State} {x : Option Staging} (h : s.apply.staging = x) : setStaging x s = s := by
  subst h
  rfl

/-- The staging step at a station with no staging of its own: kept from a WRITE or DROP of its sender, else emptied. -/
theorem stagingStep_peer {f : Frame} {s : State} (h : ∀ st, s.apply.staging = some st → st.sender ≠ s.straps.number) :
    stagingStep f s = setStaging
      (s.apply.staging.filter fun st => st.sender == f.head.sender && keepsStaging f.body) s := by
  unfold stagingStep
  split
  · rename_i e
    rw [setStaging_self]
    simp [e]
  · rename_i st e
    split
    · rename_i h2
      rw [setStaging_self]
      simp [e, Option.filter, h2.1, h2.2]
    · rename_i h2
      have h3 : st.sender ≠ self (setStaging none s) := h st e
      have h4 : (st.sender == f.head.sender && keepsStaging f.body) = false := by
        rw [Bool.eq_false_iff]
        intro h5
        simp only [Bool.and_eq_true, beq_iff_eq] at h5
        exact h2 h5
      rw [e, show Option.filter (fun st => st.sender == f.head.sender && keepsStaging f.body) (some st) = none by
        simp [Option.filter, h4]]
      exact if_neg h3

/-! ### The lock effect touches locks and port alone, and reads neither the Apply Unit nor what it changes there -/

theorem complete_withApply (k : TicketNo) (o : Completion) (a : ApplyUnit) (s : State) :
    complete k o (s.withApply a) = (complete k o s).withApply a := by
  unfold complete
  rw [show (s.withApply a).port = s.port from rfl]
  cases s.port.tickets[k] with
  | none => rfl
  | some t =>
      dsimp only
      split <;> rfl

theorem completeFor_withApply (kind : RequestKind) (r : Region) (o : Completion) (a : ApplyUnit) (s : State) :
    completeFor kind r o (s.withApply a) = (completeFor kind r o s).withApply a := by
  unfold completeFor
  rw [show (s.withApply a).port = s.port from rfl]
  cases liveFor s.port kind r with
  | none => rfl
  | some k => exact complete_withApply k o a s

theorem completeGrants_withApply (before : Vector RegionEntry 16) (a : ApplyUnit) (s : State) :
    completeGrants before (s.withApply a) = (completeGrants before s).withApply a := by
  unfold completeGrants
  rw [show grantedSince before (s.withApply a) = grantedSince before s from rfl]
  generalize grantedSince before s = l
  induction l generalizing s with
  | nil => rfl
  | cons r l ih => simp only [List.foldl_cons, completeFor_withApply, ih]

theorem lockEffect_withApply (f : Frame) (a : ApplyUnit) (s : State) :
    lockEffect f (s.withApply a) = (lockEffect f s).withApply a := by
  have hg := fun (before : Vector RegionEntry 16) (l : Vector RegionEntry 16) =>
    completeGrants_withApply before a (s.withLocks l)
  unfold lockEffect
  rw [show (s.withApply a).mship = s.mship from rfl, show self (s.withApply a) = self s from rfl]
  cases f.body with
  | claim r =>
      by_cases h : isMember s.mship.table f.head.sender = true
      · by_cases h2 : f.head.sender = self s
            ∧ holdsRegion r (s.withLocks (s.locks.set r.val (claimEntry f.head.sender s.locks[r]))) = true
        · have e1 : applyClaim f.head.sender r (s.withApply a)
              = completeFor .claim r .granted
                ((s.withLocks (s.locks.set r.val (claimEntry f.head.sender s.locks[r]))).withApply a) := by
            unfold applyClaim
            rw [show (s.withApply a).mship = s.mship from rfl, if_pos h]
            exact if_pos h2
          have e2 : applyClaim f.head.sender r s
              = completeFor .claim r .granted
                (s.withLocks (s.locks.set r.val (claimEntry f.head.sender s.locks[r]))) := by
            unfold applyClaim
            rw [if_pos h]
            exact if_pos h2
          simp only [e1, e2, completeFor_withApply]
        · have e1 : applyClaim f.head.sender r (s.withApply a)
              = (s.withLocks (s.locks.set r.val (claimEntry f.head.sender s.locks[r]))).withApply a := by
            unfold applyClaim
            rw [show (s.withApply a).mship = s.mship from rfl, if_pos h]
            exact if_neg h2
          have e2 : applyClaim f.head.sender r s
              = s.withLocks (s.locks.set r.val (claimEntry f.head.sender s.locks[r])) := by
            unfold applyClaim
            rw [if_pos h]
            exact if_neg h2
          simp only [e1, e2]
      · have e : ∀ t : State, t.mship = s.mship → applyClaim f.head.sender r t = t := by
          intro t ht
          unfold applyClaim
          rw [ht, if_neg h]
        simp only [e s rfl, e (s.withApply a) rfl]
  | yield r => dsimp only; split <;> [rfl; exact hg _ _]
  | leave => dsimp only; split <;> [exact hg _ _; rfl]
  | drop t _ => dsimp only; split <;> [exact hg _ _; rfl]
  | join _ => dsimp only; split <;> [exact hg _ _; rfl]
  | presence => rfl
  | write _ => rfl
  | snapState _ _ => rfl
  | snapCells _ _ _ => rfl
  | mend _ _ => rfl
  | mendReply _ _ _ => rfl
  | signal _ _ => rfl

/-- The lock effect changes the Lock Table and the port alone. -/
theorem lockEffect_changes (f : Frame) (s : State) : ∃ l p, lockEffect f s = (s.withLocks l).withPort p := by
  have same : ∃ l p, s = (s.withLocks l).withPort p := ⟨s.locks, s.port, rfl⟩
  unfold lockEffect
  cases f.body with
  | claim r =>
      dsimp only
      unfold applyClaim
      dsimp only
      split
      · split
        · obtain ⟨p, hp⟩ := completeFor_port .claim r .granted
            (s.withLocks (s.locks.set r.val (claimEntry f.head.sender s.locks[r])))
          exact ⟨_, p, hp⟩
        · exact ⟨s.locks.set r.val (claimEntry f.head.sender s.locks[r]), s.port, rfl⟩
      · exact same
  | yield r =>
      dsimp only
      split
      · exact same
      · obtain ⟨p, hp⟩ := completeGrants_port s.locks
          (s.withLocks (s.locks.set r.val (yieldEntry f.head.sender s.locks[r])))
        exact ⟨_, p, hp⟩
  | leave =>
      dsimp only
      split
      · obtain ⟨p, hp⟩ := releaseLocks_changes f.head.sender s
        exact ⟨_, p, hp⟩
      · exact same
  | drop t _ =>
      dsimp only
      split
      · obtain ⟨p, hp⟩ := releaseLocks_changes t s
        exact ⟨_, p, hp⟩
      · exact same
  | join _ =>
      dsimp only
      split
      · obtain ⟨p, hp⟩ := releaseLocks_changes f.head.sender s
        exact ⟨_, p, hp⟩
      · exact same
  | presence => exact same
  | write _ => exact same
  | snapState _ _ => exact same
  | snapCells _ _ _ => exact same
  | mend _ _ => exact same
  | mendReply _ _ _ => exact same
  | signal _ _ => exact same

/-- A frame of a kind without lock effect leaves the locks and the port as they are. -/
theorem lockEffect_none {f : Frame} (s : State) (h : f.body = .presence ∨ (∃ w, f.body = .write w)
      ∨ (∃ t im, f.body = .snapState t im) ∨ (∃ t g rs, f.body = .snapCells t g rs) ∨ (∃ t c, f.body = .mend t c)
      ∨ (∃ t c a, f.body = .mendReply t c a) ∨ ∃ t bs, f.body = .signal t bs) : lockEffect f s = s := by
  unfold lockEffect
  rcases h with h | ⟨w, h⟩ | ⟨t, im, h⟩ | ⟨t, g, rs, h⟩ | ⟨t, c, h⟩ | ⟨t, c, a, h⟩ | ⟨t, bs, h⟩ <;> rw [h]

theorem lockEffect_apply (f : Frame) (s : State) : (lockEffect f s).apply = s.apply := by
  obtain ⟨l, p, h⟩ := lockEffect_changes f s
  rw [h]
  rfl

theorem lockEffect_straps (f : Frame) (s : State) : (lockEffect f s).straps = s.straps := by
  obtain ⟨l, p, h⟩ := lockEffect_changes f s
  rw [h]
  rfl

theorem lockEffect_setStaging (f : Frame) (st : Option Staging) (s : State) :
    setStaging st (lockEffect f s) = lockEffect f (setStaging st s) := by
  unfold setStaging
  rw [lockEffect_apply]
  exact (lockEffect_withApply f _ s).symm

/-- The path of an applied frame of a peer: the effect on the locks and then the effect of its kind on what every applied
frame leaves, then the ack window, acked by the station state that results; a frame whose effect finds the station out of
step makes it depart. -/
theorem exec_applies {s : State} {f : Frame} (h : Applies s f) :
    exec (frameCommand f) s = .next (match effect f none (lockEffect f { taken f s with bus := (hearing f s).bus }) with
      | some t => enterAckWindow (isHolder t.mship.state) .heard t
      | none => enterAckWindow false .heard (depart .outOfStep
          { heardState f s with apply := { s.apply with doubt := .clear } })) := by
  obtain ⟨h1, ⟨h2, h3, h4, h5⟩, h6, h7⟩ := h
  rw [exec_heard h1]
  simp only [meetListening_hearing f (holder_configured h2)]
  have k2 : isHolder (heardState f s).mship.state = true := h2
  rw [handlePeer_holder k2]
  have k3 : isForeign f (heardState f s) = false := by
    simp only [isForeign, Bool.or_eq_false_iff, beq_eq_false_iff_ne, Bool.and_eq_false_iff]
    refine ⟨h3, .inr ?_⟩
    have k : isTableSender (heardState f s).mship.table f.head.sender = true := bne_iff_ne.2 h4
    rw [k]
    rfl
  have k5 : resolveDoubt f (heardState f s) = .goOn := resolveDoubt_free h5
  have k6 : checkSeq f (setDoubt .clear (heardState f s)) = .applied := checkSeq_next h6
  unfold handleAtHolder
  simp only [k3, Bool.false_eq_true, if_false, k5, k6]
  have k7 : takeFrame f none (signOfLife f.head.sender (setDoubt .clear (heardState f s)))
      = effect f none (lockEffect f { taken f s with bus := (hearing f s).bus }) := by
    unfold takeFrame
    have k8 : isTableSender (signOfLife f.head.sender (setDoubt .clear (heardState f s))).mship.table f.head.sender
        = true := bne_iff_ne.2 h4
    unfold recordSeq
    rw [if_pos k8, stagingStep_peer (by intro st e; rw [lockEffect_straps]; rw [lockEffect_apply] at e; exact h7 st e),
      lockEffect_apply, lockEffect_setStaging]
    rfl
  rw [k7]
  cases effect f none (lockEffect f { taken f s with bus := (hearing f s).bus }) <;> rfl

end Sys2Proof.Machine
end

