-- ==== Sys2Proof/Laws/Requests.lean ====
section
/-! SUPPORT. The check point of a request in hand: what each request's command answers, as one call of its body; and the
acceptance of a deferred request. -/

namespace Sys2Proof.Machine

open Sys2Proof.Safety

/-- The check point of the request in hand carries it out on its arguments. -/
theorem checkPoint_in_hand {code : Byte} {args : List Byte} {s : State} (f : List Byte → State → State)
    (h : InHand code args s) : running (checkPoint code f) s = .next (f args s) := by
  obtain ⟨h1, h2⟩ := h
  simp only [Running] at h1
  simp [running, h1, checkPoint, h2]

/-- A request that is not in hand has no check point. -/
theorem checkPoint_not_in_hand {code : Byte} {s : State} (f : List Byte → State → State)
    (h : ∀ args, s.port.phase ≠ .working { code := code, args := args }) : running (checkPoint code f) s = .next s := by
  have e : checkPoint code f s = s := by
    unfold checkPoint
    split
    · rename_i rq hrq
      split
      · rename_i hc
        exact absurd (by rw [hrq, ← hc]) (h rq.args)
      · rfl
    · rfl
    · rfl
  simp [running, e]

theorem exec_status {args : List Byte} {s : State} (h : InHand 0x01 args s) :
    exec .status s = .next (doStatus args s) := checkPoint_in_hand _ h

theorem exec_configure {args : List Byte} {s : State} (h : InHand 0x02 args s) :
    exec .configure s = .next (doConfigure args s) := checkPoint_in_hand _ h

theorem exec_readCells {args : List Byte} {s : State} (h : InHand 0x03 args s) :
    exec .readCells s = .next (doReadCells args s) := checkPoint_in_hand _ h

theorem exec_readRegion {args : List Byte} {s : State} (h : InHand 0x04 args s) :
    exec .readRegion s = .next (doReadRegion args s) := checkPoint_in_hand _ h

theorem exec_readMembers {args : List Byte} {s : State} (h : InHand 0x05 args s) :
    exec .readMembers s = .next (doReadMembers args s) := checkPoint_in_hand _ h

theorem exec_takeNotice {args : List Byte} {s : State} (h : InHand 0x06 args s) :
    exec .takeNotice s = .next (doTakeNotice args s) := checkPoint_in_hand _ h

theorem exec_setWatch {args : List Byte} {s : State} (h : InHand 0x07 args s) :
    exec .setWatch s = .next (doSetWatch args s) := checkPoint_in_hand _ h

theorem exec_stageCell {args : List Byte} {s : State} (h : InHand 0x08 args s) :
    exec .stageCell s = .next (doStageCell args s) := checkPoint_in_hand _ h

theorem exec_unstageCell {args : List Byte} {s : State} (h : InHand 0x09 args s) :
    exec .unstageCell s = .next (doUnstageCell args s) := checkPoint_in_hand _ h

theorem exec_discardDraft {args : List Byte} {s : State} (h : InHand 0x0A args s) :
    exec .discardDraft s = .next (doDiscardDraft args s) := checkPoint_in_hand _ h

theorem exec_join {args : List Byte} {s : State} (h : InHand 0x10 args s) :
    exec .join s = .next (doJoin args s) := checkPoint_in_hand _ h

theorem exec_leave {args : List Byte} {s : State} (h : InHand 0x11 args s) :
    exec .leave s = .next (doLeave args s) := checkPoint_in_hand _ h

theorem exec_claim {args : List Byte} {s : State} (h : InHand 0x12 args s) :
    exec .claim s = .next (doClaim args s) := checkPoint_in_hand _ h

theorem exec_release {args : List Byte} {s : State} (h : InHand 0x13 args s) :
    exec .release s = .next (doRelease args s) := checkPoint_in_hand _ h

theorem exec_withdraw {args : List Byte} {s : State} (h : InHand 0x14 args s) :
    exec .withdraw s = .next (doWithdraw args s) := checkPoint_in_hand _ h

theorem exec_commit {args : List Byte} {s : State} (h : InHand 0x15 args s) :
    exec .commit s = .next (doCommit args s) := checkPoint_in_hand _ h

theorem exec_signal {args : List Byte} {s : State} (h : InHand 0x16 args s) :
    exec .signal s = .next (doSignal args s) := checkPoint_in_hand _ h

/-- A refusal holds its result and changes nothing else. -/
theorem refuse_eq (c : ResultCode) (s : State) : refuse c s = answered c [] s := rfl

theorem respond_eq (c : ResultCode) (b : List Byte) (s : State) : respond c b s = answered c b s := rfl

/-- The acceptance of a deferred request. -/
theorem accept_eq (k : TicketNo) (kind : RequestKind) (arg : TicketArg) (link : Option TicketNo) (f : SendFrame)
    (s : State) : accept k kind arg link f s = accepted k kind arg link f s := rfl

/-- With a ticket to issue the request goes on with it. -/
theorem withTicket_issuable {k : TicketNo} {s : State} (f : TicketNo → State → State) (h : Issuable k s.port) :
    withTicket f s = f k s := by
  have e : issuable s.port = some k := (issuable_eq_some_iff _ _).2 h
  simp [withTicket, e]

/-- Without one it is refused NO_TICKET. -/
theorem withTicket_none {s : State} (f : TicketNo → State → State) (h : ∀ k, ¬ Issuable k s.port) :
    withTicket f s = answered .noTicket [] s := by
  have e : issuable s.port = none := by
    cases e : issuable s.port with
    | none => rfl
    | some k => exact absurd ((issuable_eq_some_iff _ _).1 e) (h k)
  simp [withTicket, e, refuse_eq]

/-- The sole live ticket of its kind and region is the one found for them. -/
theorem liveFor_sole {k : TicketNo} {t : Ticket} {p : HostPort} {r : Region} (h : SoleLive k t p)
    (ha : t.arg = .region r) : liveFor p t.kind r = some k := by
  obtain ⟨h1, h2, h3⟩ := h
  refine findLive_eq h1 h2 (by simp [ha]) fun j u hu hl hq => ?_
  simp only [Bool.and_eq_true, beq_iff_eq] at hq
  exact h3 j u hu hq.1 (by rw [hq.2, ha]) hl

end Sys2Proof.Machine
end

