-- ==== Sys2Proof/Laws/Slots.lean ====
section
/-! SUPPORT. What the passing of slots does, and at which of them a transmission start comes (R158, R159). -/

namespace Sys2Proof.Machine

open Sys2Proof.Safety

@[simp] theorem timerRun_zero (t : Option Nat) : timerRun 0 t = t := by cases t <;> rfl

theorem timerRun_add (j k : Nat) (t : Option Nat) : timerRun k (timerRun j t) = timerRun (j + k) t := by
  cases t <;> simp [timerRun]; omega

@[simp] theorem passSlots_zero (s : State) : passSlots 0 s = s := by
  have a : s.mship.silence.map (timerRun 0) = s.mship.silence := by
    conv_rhs => rw [← Vector.map_id s.mship.silence]
    exact congrArg (s.mship.silence.map ·) (funext timerRun_zero)
  have b : (s.mend.current.map fun m => { m with window := m.window }) = s.mend.current := by cases s.mend.current <;> rfl
  simp only [passSlots, a, timerRun_zero, Nat.add_zero, ite_self]
  rw [b]

/-- Slots pass one run after another as they pass together. -/
theorem passSlots_add (j k : Nat) (s : State) : passSlots k (passSlots j s) = passSlots (j + k) s := by
  simp only [passSlots, timerRun_add, Vector.map_map, Option.map_map, Function.comp_def]
  split <;> simp [Nat.add_assoc]

/-- A timer that does not run out within a slot stands above 0 after it. -/
theorem not_ranOut_timerRun {k : Nat} {t : Option Nat} (h : ∀ v, t = some v → k < v) : ranOut (timerRun k t) = false := by
  cases t with
  | none => rfl
  | some v => have := h v rfl; simp [ranOut, timerRun]; omega

/-- Where no timer runs out within k slots and no hold-off runs, none has run out after them: no expiry is due. -/
theorem dueExpiries_passSlots {k : Nat} {s : State} (h : NoneRunsOut k s) (hold : s.access.holdOff = none) :
    dueExpiries (passSlots k s) = passSlots k s := by
  obtain ⟨h1, h2, h3, h4⟩ := h
  have silent : stations.foldl (fun s x => if ranOut s.mship.silence[x] then expireSilence x s else s) (passSlots k s)
      = passSlots k s := by
    generalize stations = l
    induction l with
    | nil => rfl
    | cons x l ih =>
      have hx : ranOut (passSlots k s).mship.silence[x] = false := by
        have := not_ranOut_timerRun (k := k) (t := s.mship.silence[x]) (h1 x)
        simpa [passSlots] using this
      rw [List.foldl_cons, if_neg (by rw [hx]; exact Bool.false_ne_true)]
      exact ih
  have a : ranOut (passSlots k s).mship.listen = false := not_ranOut_timerRun h3
  have b : ranOut (passSlots k s).access.holdOff = false := by simp [passSlots, hold, timerRun, ranOut]
  have c : ranOut (passSlots k s).mship.presence = false := not_ranOut_timerRun h2
  have d : (passSlots k s).mend.current.any (fun m => ranOut m.window) = false := by
    cases hm : s.mend.current with
    | none => simp [passSlots, hm]
    | some m => simpa [passSlots, hm] using not_ranOut_timerRun (h4 m · hm)
  simp only [dueExpiries, a, b, silent, c, d, Bool.false_eq_true, if_false]

theorem noneRunsOut_mono {j k : Nat} {s : State} (h : NoneRunsOut k s) (le : j ≤ k) : NoneRunsOut j s :=
  ⟨fun x v e => le.trans_lt (h.1 x v e), fun v e => le.trans_lt (h.2.1 v e), fun v e => le.trans_lt (h.2.2.1 v e),
    fun m v e f => le.trans_lt (h.2.2.2 m v e f)⟩

/-- Where no timer runs out within j + 1 slots and no hold-off runs, the next slot after j only passes. -/
theorem slotPasses_passSlots {j : Nat} {s : State} (h : NoneRunsOut (j + 1) s) (hold : s.access.holdOff = none) :
    slotPasses (passSlots j s) = passSlots (j + 1) s := by
  rw [slotPasses, passSlots_add, dueExpiries_passSlots h hold]

/-- All that a transmission start within k slots can be: the start at the first of the states, slot by slot, in which a
frame may start. -/
theorem startWithin_eq_some {k : Nat} {s t : State} :
    startWithin k s = some t ↔
      ∃ j ≤ k, startNow (slotPasses^[j] s) = some t ∧ ∀ i < j, startNow (slotPasses^[i] s) = none := by
  induction k generalizing s with
  | zero =>
    constructor
    · exact fun h => ⟨0, le_rfl, h, fun i hi => absurd hi (Nat.not_lt_zero i)⟩
    · rintro ⟨j, hj, h, -⟩
      obtain rfl : j = 0 := by omega
      exact h
  | succ k ih =>
    cases h0 : startNow s with
    | some u =>
      simp only [startWithin, h0, Option.orElse_some, Option.some.injEq]
      constructor
      · rintro rfl
        exact ⟨0, Nat.zero_le _, h0, fun i hi => absurd hi (Nat.not_lt_zero i)⟩
      · rintro ⟨j, -, h, first⟩
        cases j with
        | zero => simpa [h0] using h
        | succ j => simpa [h0] using first 0 (Nat.succ_pos j)
    | none =>
      simp only [startWithin, h0, Option.orElse_none, ih]
      constructor
      · rintro ⟨j, hj, h, first⟩
        refine ⟨j + 1, Nat.succ_le_succ hj, h, fun i hi => ?_⟩
        cases i with
        | zero => exact h0
        | succ i => exact first i (Nat.lt_of_succ_lt_succ hi)
      · rintro ⟨j, hj, h, first⟩
        cases j with
        | zero => simp [h0] at h
        | succ j => exact ⟨j, Nat.le_of_succ_le_succ hj, h, fun i hi => first (i + 1) (Nat.succ_lt_succ hi)⟩

/-- No start comes within k slots where none of the states, slot by slot, lets a frame start. -/
theorem startWithin_eq_none {k : Nat} {s : State} :
    startWithin k s = none ↔ ∀ j ≤ k, startNow (slotPasses^[j] s) = none := by
  induction k generalizing s with
  | zero => exact ⟨fun h j hj => by obtain rfl : j = 0 := by omega
                                    exact h, fun h => h 0 le_rfl⟩
  | succ k ih =>
    cases h0 : startNow s with
    | some u =>
      simp only [startWithin, h0, Option.orElse_some, reduceCtorEq, false_iff, not_forall]
      exact ⟨0, Nat.zero_le _, by simp [h0]⟩
    | none =>
      simp only [startWithin, h0, Option.orElse_none, ih]
      constructor
      · intro h j hj
        cases j with
        | zero => exact h0
        | succ j => exact h j (Nat.le_of_succ_le_succ hj)
      · exact fun h j hj => h (j + 1) (Nat.succ_le_succ hj)

/-- Where no timer runs out within k slots and no hold-off runs, the states slot by slot are those of slots that only
pass. -/
theorem slotPasses_iterate {k : Nat} {s : State} (h : NoneRunsOut k s) (hold : s.access.holdOff = none) :
    ∀ j ≤ k, slotPasses^[j] s = passSlots j s := by
  intro j
  induction j with
  | zero => intro; simp
  | succ j ih =>
    intro hj
    rw [Function.iterate_succ_apply', ih (by omega), slotPasses_passSlots (noneRunsOut_mono h hj) hold]

/-- The start at a first moment k slots on, before which no timer runs out and no frame may start, is that of the slots
having passed. -/
theorem startAfter_first {slots k : Nat} {s : State} (h : NoneRunsOut k s) (hold : s.access.holdOff = none) (le : k ≤ slots)
    (before : ∀ j < k, (startable (passSlots j s)).isSome = false) (at_k : (startable (passSlots k s)).isSome = true) :
    startAfter slots s = startTransmission (passSlots k s) := by
  have run := slotPasses_iterate h hold
  have : startWithin slots s = some (startTransmission (passSlots k s)) := startWithin_eq_some.mpr
    ⟨k, le, by simp [run k le_rfl, startNow, at_k], fun i hi => by simp [run i hi.le, startNow, before i hi]⟩
  simp [startAfter, this]

end Sys2Proof.Machine
end

