-- ==== Sys2Proof/Laws/Windows.lean ====
section
/-! SUPPORT. The end of an ack window: what every one leaves, and then the judgement. -/

namespace Sys2Proof.Machine

open Sys2Proof.Safety

/-- The silence timers after signs of life of the stations listed. -/
def silenceSeen (l : List Station) (t : Vector (Option Nat) 16) : Vector (Option Nat) 16 :=
  Vector.ofFn fun j : Fin 16 => if j ∈ l then t[j].map (fun _ => 16384) else t[j]

/-- The DROPs that stay queued after them. -/
def dropsLeft (l : List Station) (ds : List DropEntry) : List DropEntry :=
  ds.filter fun d => !(decide (d.target ∈ l) && d.reason == .silent && d.cls == .turn)

theorem silenceSeen_nil (t : Vector (Option Nat) 16) : silenceSeen [] t = t := by
  apply Vector.ext
  intro i hi
  simp [silenceSeen]

theorem silenceSeen_cons (x : Station) (l : List Station) (t : Vector (Option Nat) 16) :
    silenceSeen l (t.set x.val (t[x].map fun _ => 16384)) = silenceSeen (x :: l) t := by
  apply Vector.ext
  intro i hi
  simp only [silenceSeen, Vector.getElem_ofFn, List.mem_cons, Fin.getElem_fin, Vector.getElem_set]
  by_cases h1 : x.val = i
  · subst h1
    by_cases h2 : x ∈ l <;> simp [h2, Function.comp_def]
  · have h3 : ¬ (⟨i, hi⟩ : Fin 16) = x := fun h => h1 (by rw [← h])
    simp [h1, h3]

theorem dropsLeft_cons (x : Station) (l : List Station) (ds : List DropEntry) :
    dropsLeft l (ds.filter fun d => !(d.target == x && d.reason == .silent && d.cls == .turn)) = dropsLeft (x :: l) ds := by
  unfold dropsLeft
  rw [List.filter_filter]
  apply List.filter_congr
  intro d _
  by_cases h1 : d.target = x
  · subst h1
    cases (d.reason == DropReason.silent) <;> cases (d.cls == DropClass.turn) <;> simp
  · have h2 : (d.target == x) = false := by simp [h1]
    simp [h1, h2]

/-- The signs of life of a list of stations: their running silence timers restart, and the DROPs that waited for their
silence go. -/
theorem signsOfLife_eq (l : List Station) (s : State) :
    l.foldl (fun s x => signOfLife x s) s
      = (s.withMship { s.mship with silence := silenceSeen l s.mship.silence }).withTx
          { s.tx with drops := dropsLeft l s.tx.drops } := by
  induction l generalizing s with
  | nil =>
      rw [silenceSeen_nil]
      simp [dropsLeft, State.withMship, State.withTx]
  | cons x l ih =>
      rw [List.foldl_cons, ih, ← silenceSeen_cons, ← dropsLeft_cons]
      rfl

/-- An ack window end: what every one leaves, then, after an own frame with a good echo, the judgement of the map, and
after the eighth collision the line-fault disposal. -/
theorem exec_ackWindowEnd {s : State} (map : Flags16) (h1 : NoneInHand s) (h2 : s.bus.state = .ackWindow) :
    exec (.ackWindowEnd map) s = .next (match s.bus.report with
      | .ownGood => judge map (windowEnded map s)
      | .collided => if s.access.collisions = 8 then disposeAtLineFault (windowEnded map s) else windowEnded map s
      | .heard => windowEnded map s) := by
  have e : ackedPeers map (if s.bus.ackDrive then restartPresence
        ((s.withBus { s.bus with state := .idle, ackMap := map, ackDrive := false, report := .heard }).withAccess
          { s.access with gapCount := 0 })
      else (s.withBus { s.bus with state := .idle, ackMap := map, ackDrive := false, report := .heard }).withAccess
          { s.access with gapCount := 0 }) = windowEnded map s := by
    have k : ∀ x : Station, x ∈ stations.filter (fun x => flag map x && x != s.straps.number)
        ↔ flag map x = true ∧ x ≠ s.straps.number := by
      intro x
      simp [stations, List.mem_filter]
    have ks : ∀ t, silenceSeen (stations.filter fun x => flag map x && x != s.straps.number) t
        = Vector.ofFn fun x : Fin 16 =>
          if flag map x = true ∧ x ≠ s.straps.number then t[x].map (fun _ => 16384) else t[x] := by
      intro t
      simp only [silenceSeen, k]
    have kd : ∀ ds, dropsLeft (stations.filter fun x => flag map x && x != s.straps.number) ds
        = ds.filter fun d => !(flag map d.target && d.target != s.straps.number && d.reason == .silent
            && d.cls == .turn) := by
      intro ds
      apply List.filter_congr
      intro d _
      rw [show decide (d.target ∈ stations.filter fun x => flag map x && x != s.straps.number)
        = (flag map d.target && d.target != s.straps.number) by
          rw [Bool.eq_iff_iff, decide_eq_true_iff, k]
          simp]
    have kw : windowEnded map s = { s with
        bus := { s.bus with state := .idle, ackMap := map, ackDrive := false, report := .heard }
        access := { s.access with gapCount := 0 }
        mship := { s.mship with
          presence := if s.bus.ackDrive = true then s.mship.presence.map (fun _ => 4096) else s.mship.presence
          silence := silenceSeen (stations.filter fun x => flag map x && x != s.straps.number) s.mship.silence }
        tx := { s.tx with
          drops := dropsLeft (stations.filter fun x => flag map x && x != s.straps.number) s.tx.drops } } := by
      rw [ks, kd]
      rfl
    rw [kw]
    unfold ackedPeers
    rw [signsOfLife_eq]
    cases hd : s.bus.ackDrive
    · simp only [Bool.false_eq_true, if_false, self, State.withMship, State.withTx, State.withBus, State.withAccess]
    · simp only [if_true, restartPresence, timerRestart, Config.presenceInterval, self, State.withMship, State.withTx,
        State.withBus, State.withAccess]
  simp only [exec, execAckWindowEnd, atEvent_free _ h1, endAckWindow, h2, if_true]
  rw [show (s.withBus { s.bus with state := .idle, ackMap := map, ackDrive := false, report := .heard }).access = s.access
    from rfl, e]
  cases s.bus.report <;> rfl

end Sys2Proof.Machine
end

