-- ==== Sys2Proof/WellFormed.lean ====
section
/-! DEFINITION. When a command is well formed: a frame command carries fields that every receiver's checks accept
(R193, R194, R67). A frame command that is not is a malformed frame, and the machine handles it as damaged-known
(R19); no other command has an ill-formed operand. -/

namespace Sys2Proof

/-- The well-formedness check of a command. -/
def Instr.wellFormed (i : Instr) : Bool :=
  match i with
  | .dropFrame h t r => Machine.frameInRange ⟨h, .drop t r⟩
  | .writeFrame h w => Machine.frameInRange ⟨h, .write w⟩
  | .snapStateFrame h t im => Machine.frameInRange ⟨h, .snapState t im⟩
  | .snapCellsFrame h t g rs => Machine.frameInRange ⟨h, .snapCells t g rs⟩
  | .mendFrame h t c => Machine.frameInRange ⟨h, .mend t c⟩
  | .mendReplyFrame h t c a => Machine.frameInRange ⟨h, .mendReply t c a⟩
  | .signalFrame h t bs => Machine.frameInRange ⟨h, .signal t bs⟩
  | .presenceFrame _ | .joinFrame _ _ | .leaveFrame _ | .claimFrame _ _ | .yieldFrame _ _ => true
  | .reset | .resetRelease _ _ | .poll _ | .fetch _ | .requestTransaction _ => true
  | .status | .configure | .readCells | .stageCell | .unstageCell | .discardDraft | .takeNotice => true
  | .setWatch | .readRegion | .readMembers | .join | .leave | .claim | .release | .withdraw => true
  | .commit | .signal | .unassignedRequest => true
  | .carrierBegin _ _ | .transmissionStart _ | .damagedFrame _ | .collision _ _ | .ackWindowEnd _ => true
  | .listenTimerExpiry | .silenceTimerExpiry _ | .presenceTimerExpiry | .mendWindowExpiry => true
  | .holdOffExpiry | .storageUpset _ _ _ _ => true

end Sys2Proof
end

