-- ==== Sys2Proof/Tests/Slice0.lean ====
section
/-! SUPPORT. Tests: ill-formed frames refused, the spec's worked tables, one small step of many commands, and for every
statement with hypotheses a state and operands that meet them. -/

namespace Sys2Proof.Tests

open Sys2Proof.Machine Sys2Proof.Safety

-- The kernel evaluations of this file run one after another: run at once they need a thread each.
set_option Elab.async false

/-! ### Well-formedness: one ill-formed term for each check -/

/-- The header of a frame of station x with sequence q. -/
def head (x : Station) (q : Seq) : FrameHead := { sender := x, repeated := false, seq := q }

/-- What a receiver samples of bytes and then one more whose stop bit is driven. -/
def cutShort (bytes : List Byte) : Heard := { line := bytes.map lineByte ++ [{ lineByte 0 with stop := .driven }] }

/-- A WRITE record of a cell at version 0 with zero data. -/
def record (c : CellIx) : WriteRecord := { cell := c, version := 0, data := zeroData }

/-- An image of a table with no entry and no lock. -/
def emptyImages : Images := { members := Vector.replicate 16 absentEntry, locks := Vector.replicate 16 freeRegion }

theorem test_drop_of_its_sender_ill_formed : (Instr.dropFrame (head 4 0) 4 .silent).wellFormed = false := by decide

theorem test_write_index_past_count_ill_formed :
    (Instr.writeFrame (head 4 0) { more := false, index := 1, count := 1, records := [record 0] }).wellFormed = false := by
  decide

theorem test_write_count_above_4_ill_formed :
    (Instr.writeFrame (head 4 0) { more := false, index := 4, count := 5, records := [record 0] }).wellFormed = false := by
  decide

theorem test_write_without_record_ill_formed :
    (Instr.writeFrame (head 4 0) { more := false, index := 0, count := 1, records := [] }).wellFormed = false := by
  decide

theorem test_write_of_nine_records_ill_formed :
    (Instr.writeFrame (head 4 0) { more := false, index := 0, count := 1
                                   records := (List.range 9).map fun i => record (Fin.ofNat 256 i) }).wellFormed = false := by
  decide

theorem test_write_more_flag_ill_formed :
    (Instr.writeFrame (head 4 0) { more := true, index := 0, count := 1, records := [record 0] }).wellFormed = false := by
  decide

theorem test_short_middle_fragment_ill_formed :
    (Instr.writeFrame (head 4 0) { more := true, index := 0, count := 2, records := [record 0] }).wellFormed = false := by
  decide

theorem test_write_cell_twice_ill_formed :
    (Instr.writeFrame (head 4 0) { more := false, index := 0, count := 1
                                   records := [record 7, record 7] }).wellFormed = false := by
  decide

theorem test_snapstate_to_its_sender_ill_formed :
    (Instr.snapStateFrame (head 4 0) 4 emptyImages).wellFormed = false := by decide

theorem test_join_place_above_14_ill_formed :
    (Instr.snapStateFrame (head 4 0) 5 { emptyImages with
      members := emptyImages.members.set 3 { absentEntry with joinPlace := some 15 } }).wellFormed = false := by
  decide +kernel

theorem test_sixteen_waiters_ill_formed :
    (Instr.snapStateFrame (head 4 0) 5 { emptyImages with
      locks := emptyImages.locks.set 3 { holder := some 1, waiters := List.replicate 16 2 } }).wellFormed = false := by
  decide +kernel

theorem test_snapcells_to_its_sender_ill_formed :
    (Instr.snapCellsFrame (head 4 0) 4 0 (Vector.replicate 8 .missing)).wellFormed = false := by decide

theorem test_mend_to_its_sender_ill_formed : (Instr.mendFrame (head 4 0) 4 0).wellFormed = false := by decide

theorem test_mendreply_to_its_sender_ill_formed :
    (Instr.mendReplyFrame (head 4 0) 4 0 .noCopy).wellFormed = false := by decide

theorem test_signal_to_its_sender_ill_formed :
    (Instr.signalFrame (head 4 0) (some 4) [1]).wellFormed = false := by decide

theorem test_signal_without_bytes_ill_formed : (Instr.signalFrame (head 4 0) none []).wellFormed = false := by decide

theorem test_signal_of_nine_bytes_ill_formed :
    (Instr.signalFrame (head 4 0) none (List.replicate 9 1)).wellFormed = false := by decide

/-- The images of a SNAPSTATE that do not agree are refused at its target and by no other station (R107). -/
theorem test_images_judged_at_the_target :
    frameOkAt 5 ⟨head 4 0, .snapState 5 emptyImages⟩ = false
      ∧ frameOkAt 6 ⟨head 4 0, .snapState 5 emptyImages⟩ = true := by decide +kernel

/-! ### The spec's worked tables -/

/-- R141: start bit, data bits least significant first, stop bit of the byte 21h; a byte whose stop bit is driven ends what
is assembled. -/
theorem test_line_code :
    lineByte 0x21 = { start := .driven
                      data := #v[.released, .driven, .driven, .driven, .driven, .released, .driven, .driven]
                      stop := .released }
      ∧ assembled (cutShort [0x21, 0xFF]) = [0x21, 0xFF] ∧ stoppedUnframed (cutShort [0x21]) = true := by decide +kernel

/-- R195: the payload check of an empty payload is FFFFh. -/
theorem test_empty_payload_check : payloadCheck [] = 0xFFFF#16 := by decide

/-- The check value of this code for the digits 1 to 9, as catalogued for generator 1021h with preset FFFFh and no final
inversion (from outside the spec). -/
theorem test_payload_check_value :
    payloadCheck [0x31, 0x32, 0x33, 0x34, 0x35, 0x36, 0x37, 0x38, 0x39] = 0x29B1#16 := by decide +kernel

/-- 12.1 and 12.2: the bytes of a CLAIM of region 3 by station 7, but for its two check codes. -/
theorem test_claim_bytes :
    (frameBytes ⟨head 7 0x2A, .claim 3⟩).take 6 = [0x21, 0x70, 0x2A, 0xFF, 0x00, 0x01]
      ∧ ((frameBytes ⟨head 7 0x2A, .claim 3⟩).drop 7).take 1 = [0x03]
      ∧ (frameBytes ⟨head 7 0x2A, .claim 3⟩).length = 10 := by decide +kernel

/-- R157's table. -/
theorem test_turn_table :
    [2, 5, 9, 13].map (fun n : Station => (turnPosition n (some 5), turnGap n (some 5), turnPosition n none, turnGap n none))
      = [(12, 30, 2, 10), (15, 36, 5, 16), (3, 12, 9, 24), (7, 20, 13, 32)] := by decide

/-- R2's table of carried versions. -/
theorem test_successors :
    [0, 41, 0xFFFFFFFE, 0xFFFFFFFF].map succVersion = [1, 42, 0xFFFFFFFF, 1] := by decide

/-- R61: a bundle of 19 cells goes as three fragments. -/
theorem test_nineteen_cells_three_fragments : fragmentCount 19 = 3 := by decide

/-! ### A small MEMBER -/

/-- A table entry that is not JOINING. -/
def entry (st : EntryState) (q : Seq) : MemberEntry := { state := st, lastSeq := q, sponsor := none, joinPlace := none }

/-- The cells of a small station: PRESENT at version 0, cell 40 DAMAGED. -/
def cells : Vector CellRec 256 :=
  (Vector.replicate 256
    { version := 0, check := cellCheck 0 zeroData, status := .present, fresh := false, upset := false }).set 40
    { version := 0, check := 0, status := .damaged, fresh := false, upset := false }

/-- The table of stations 3, 5 and 9 MEMBER with last sequences 10, 20 and 40, and 7 JOINING with sponsor 5. -/
def table : Vector MemberEntry 16 :=
  ((((Vector.replicate 16 absentEntry).set 3 (entry .member 10)).set 5 (entry .member 20)).set 9 (entry .member 40)).set 7
    { state := .joining, lastSeq := 30, sponsor := some 5, joinPlace := some 0 }

/-- Region 0 held by 5; 1 held by 3 with 5 waiting; 2 held by 5 with 3 waiting; 4 held by 5 with 9 waiting. -/
def locks : Vector RegionEntry 16 :=
  ((((Vector.replicate 16 freeRegion).set 0 { holder := some 5, waiters := [] }).set 1
    { holder := some 3, waiters := [5] }).set 2 { holder := some 5, waiters := [3] }).set 4
    { holder := some 5, waiters := [9] }

/-- The CLAIM ticket for region 2 that waits. -/
def waitingClaim : Ticket := { kind := .claim, state := .waiting, arg := .region 2, link := none }

/-- Station 3, MEMBER of that table, with a CLAIM waiting on region 2 and its silence timers running. -/
def m3 : State :=
  { State.reset with
    straps := { number := 3, rate := 2, inReset := false }
    cells := cells
    locks := locks
    mship := { Membership.reset with
      state := .member, table := table, presence := some 4096, listening := true, repeatLimit := some 2
      autoRejoin := some true
      silence := (((Vector.replicate 16 none).set 5 (some 100)).set 7 (some 100)).set 9 (some 100) }
    port := { HostPort.reset with tickets := (Vector.replicate 16 none).set 0 (some waitingClaim), order := [0] } }

/-- m3 in another station state. -/
def inState (st : StationState) (s : State) : State := { s with mship := { s.mship with state := st } }

/-- A request in hand. -/
def hand (code : Byte) (args : List Byte) (s : State) : State :=
  { s with port := { s.port with phase := .working { code := code, args := args } } }

/-- The bus at its ack window, after the given carrier end. -/
def window (r : EndReport) (s : State) : State := { s with bus := { s.bus with state := .ackWindow, report := r } }

/-- A slot of m3's with a frame of a body heard, required from stations 5, 7 and 9. -/
def slotOf (body : Body) : Slot :=
  { frame := ⟨head 3 11, body⟩, required := 0x02A0, repeats := 0, heard := true, gap := .repeatGap, ticket := some 0
    targetIn := false }

/-- A slot put into the state. -/
def withSlot (sl : Slot) (s : State) : State := { s with tx := { s.tx with slot := some sl } }

/-- The state after a command, where it answers one. -/
def after (c : Instr) (s : State) : Option State :=
  match exec c s with
  | .next t => some t
  | _ => none

/-! ### One small step of a command -/

/-- R54: region 2 of m3, its holder 5 and its one waiter 3. -/
theorem test_read_region :
    (after .readRegion (hand 0x04 [2] m3)).map (·.port.phase)
      = some (.holding { code := .ok, body := [0x05, 0x01, 0x03] }) := by decide +kernel

/-- 12.4: a STATUS of m3 begins with its number, rate code, state, repeat limit, auto-rejoin and member set. -/
theorem test_status_head :
    (after .status (hand 0x01 [] m3)).map (fun t => match t.port.phase with
      | .holding r => (r.code, r.body.take 8, r.body.length)
      | _ => (.none, [], 0)) = some (.ok, [0x03, 0x02, 0x05, 0x02, 0x01, 0x28, 0x02, 0x03], 31) := by decide +kernel

/-- R17: one PRESENT cell of version 0 and the DAMAGED cell 40 without content. -/
theorem test_read_cells :
    (after .readCells (hand 0x03 [39, 2] m3)).map (fun t => match t.port.phase with
      | .holding r => (r.body.take 5, r.body.drop 37)
      | _ => ([], [])) = some ([0x01, 0, 0, 0, 0], [0x02, 0, 0, 0, 0]) := by decide +kernel

/-- R45: a second CLAIM of the region waited on is ALREADY (13.1). -/
theorem test_claim_already :
    (after .claim (hand 0x12 [2] m3)).map (·.port.phase) = some (.holding { code := .already, body := [] }) := by
  decide +kernel

/-- 13.4: the holder's YIELD makes this station holder, and its CLAIM completes GRANTED. -/
theorem test_yield_grants :
    (after (.yieldFrame (head 5 21) 2) m3).map (fun t => (t.locks[2], t.port.notices))
      = some ({ holder := some 3, waiters := [] }, [.completion 0 .claim .granted]) := by decide +kernel

/-- 13.1: a CLAIM of a held region waits. -/
theorem test_claim_waits :
    (after (.claimFrame (head 9 41) 0) m3).map (·.locks[0]) = some { holder := some 5, waiters := [9] } := by
  decide +kernel

/-- 13.2: a DROP naming this station from a MEMBER makes it depart DROPPED, without rejoining. -/
theorem test_dropped_departs :
    (after (.dropFrame (head 9 41) 3 .noAck) m3).map (fun t => (t.mship.state, t.port.notices, t.tx.sendList))
      = some (.outside, [.completion 0 .claim .lost, .leftGroup .dropped], []) := by decide +kernel

/-- 13.2: a sequence that is neither the next nor the last finds the station out of step, and it rejoins. -/
theorem test_gap_rejoins :
    (after (.presenceFrame (head 9 43)) m3).map (fun t => (t.mship.state, t.tx.sendList))
      = some (.joinSent, [{ ticket := none, frame := .join }]) := by decide +kernel

/-- 13.6: a damaged-unknown frame clears L and leaves DOUBT_UNKNOWN. -/
theorem test_damaged_unknown :
    (after (.damagedFrame (cutShort [1, 2, 3])) m3).map (fun t => (t.apply.doubt, t.access.reference))
      = some (.unknown, none) := by decide +kernel

/-- R70, 13.3: a bundle of one record writes its cell at the next version. -/
theorem test_write_applies :
    (after (.writeFrame (head 5 21) { more := false, index := 0, count := 1
                                      records := [{ cell := 6, version := 1, data := zeroData.set 0 0xAB }] }) m3).map
      (fun t => (t.mem, t.cells[6].version)) = some ([(192, 0xAB)], 1) := by decide +kernel

/-- R81: a newcomer's JOIN names the lowest-numbered MEMBER, this station, as its sponsor. -/
theorem test_join_sponsored :
    (after (.joinFrame (head 8 77) false) m3).map (fun t => (t.mship.table[8], t.sponsor.joiners))
      = some ({ state := .joining, lastSeq := 77, sponsor := some 3, joinPlace := some 1 }, [8]) := by decide +kernel

/-- R87, R42, R82: a LEAVE passes the leaver's regions on and hands its joiner to the lowest-numbered MEMBER. -/
theorem test_leave_passes_on :
    (after (.leaveFrame (head 5 21)) m3).map (fun t => (t.locks[4].holder, t.mship.table[7].sponsor))
      = some (some 9, some 3) := by decide +kernel

/-- R119's example: station 6 with MEMBERs 1, 6, 9 and 13 asks 9, 13, 1, the holder 9 first. -/
theorem test_responder_order :
    (responderOrder 6).filter (fun x => x = 1 ∨ x = 9 ∨ x = 13) = [9, 13, 1] := by decide

/-- 13.2: with one position missing and repeats left the frame is repeated; with the repeats used up it settles and a
DROP is queued. -/
theorem test_missing_station :
    (after (.ackWindowEnd 0x0220) (window .ownGood (withSlot (slotOf .presence) m3))).map (·.tx.slot.isSome) = some true
      ∧ (after (.ackWindowEnd 0x0220)
          (window .ownGood (withSlot { slotOf .presence with repeats := 2 } m3))).map (fun t => (t.tx.slot, t.tx.drops))
        = some (none, [{ target := 7, reason := .noAck, cls := .settlement }]) := by decide +kernel

/-- R92, R158, R159: the PRESENCE queued starts at the first moment of the turn gap and not a slot before; station 3 with L
unset waits 12, and more slots given start it no later. -/
theorem test_presence_starts :
    (after (.transmissionStart 40) { m3 with tx := { m3.tx with presence := true } }).map
        (fun t => (t.bus.state, t.access.gapCount)) = some (.sending, 12)
      ∧ (after (.transmissionStart 11) { m3 with tx := { m3.tx with presence := true } }).map (·.bus.state)
        = some .idle := by decide +kernel

/-- R158: on a quiet bus a PRESENCE queued at the expiry of its timer goes out at once, after 5 more slots here. -/
theorem test_presence_expiry_starts :
    (after (.transmissionStart 40)
        { m3 with mship := { m3.mship with presence := some 5 }, access := { m3.access with gapCount := 30 } }).map
      (fun t => (t.access.gapCount, t.tx.slot.map (·.frame.body), t.mship.presence)) = some (35, some .presence, some 4096) := by
  decide +kernel

/-- R85: the JOIN without any ack founds the group. -/
theorem test_founding :
    (after (.ackWindowEnd 0) (window .ownGood (withSlot { slotOf (.join false) with repeats := 2, ticket := none }
      (inState .joinSent m3)))).map (fun t => (t.mship.state, t.mship.table[3], t.port.notices.getLast?))
      = some (.member, entry .member 11, some (.memberIn 3)) := by decide +kernel

/-- R161: the eighth collision posts LINE_FAULT and starts the hold-off. -/
theorem test_eighth_collision :
    (after (.collision true (cutShort []))
      { withSlot (slotOf .presence) m3 with
        bus := { m3.bus with state := .sending }, access := { m3.access with collisions := 7 } }).map
      (fun t => (t.access.collisions, t.access.holdOff, t.port.notices)) = some (8, some 16384, [.lineFault]) := by
  decide +kernel

/-- R41, R87: a LEAVE that both grants this station a region and breaks its bundle posts GRANTED, then the COMMIT's REFUSED,
then MEMBER_OUT. -/
theorem test_granted_before_refused :
    (after (.leaveFrame (head 5 21)) { m3 with
      apply := { m3.apply with staging := some { sender := 3, count := 2, expected := 1, records := [] } }
      bundle := { draft := [], outgoing := some { entries := [], ticket := 1, next := 1 } }
      port := { m3.port with
        tickets := m3.port.tickets.set 1 (some { kind := .commit, state := .sending, arg := .none, link := none })
        order := [0, 1] } }).map (·.port.notices)
      = some [.completion 0 .claim .granted, .completion 1 .commit .refused, .memberOut 5 .leave] := by decide +kernel

/-- R181: a WITHDRAW in hand has its check point before the YIELD heard next, and so finds its CLAIM waiting still. -/
theorem test_check_point_before_frame :
    (after (.yieldFrame (head 5 21) 2) (hand 0x14 [2] m3)).map (fun t => (t.port.phase, t.port.notices))
      = some (.holding { code := .accepted, body := [0x01] }, [.completion 0 .claim .granted]) := by decide +kernel

/-- Time passes on an empty queue: the presence timer runs down and its PRESENCE is queued (log 4). -/
theorem test_tick_runs_timers :
    (match step { m3 with mship := { m3.mship with presence := some 1 } } with
      | .next t => (t.mship.presence, t.tx.presence)
      | _ => (none, false)) = (some 4096, true) := by decide +kernel

/-! ### Hypotheses met: helpers -/

/-- The test of `NoneInHand`. -/
def noneInHandB (s : State) : Bool :=
  !s.straps.inReset && match s.port.phase with
    | .working _ => false
    | .idle | .holding _ => true

theorem none_in_hand {s : State} (h : noneInHandB s = true) : NoneInHand s := by
  simp only [noneInHandB, Bool.and_eq_true, Bool.not_eq_true'] at h
  refine ⟨h.1, fun rq e => ?_⟩
  simp [e] at h

/-- The test of `Hears`. -/
def hearsB (s : State) (f : Frame) : Bool :=
  noneInHandB s && frameOkAt s.straps.number f
    && (s.bus.state == .idle || (s.bus.state == .receiving && s.bus.record.startMark))

theorem hears_of {s : State} {f : Frame} (h : hearsB s f = true) : Hears s f := by
  simp only [hearsB, Bool.and_eq_true (a := _ && _), Bool.and_eq_true (a := noneInHandB s), Bool.and_eq_true,
    Bool.or_eq_true, beq_iff_eq] at h
  exact ⟨none_in_hand h.1.1, h.1.2, h.2⟩

/-- No sequence is known to be missed. -/
def doubtFree (s : State) : Bool :=
  match s.apply.doubt with
  | .known _ _ => false
  | .clear | .unknown => true

theorem no_known_of {s : State} (h : doubtFree s = true) : ∀ x q, s.apply.doubt ≠ .known x q := by
  intro x q e
  simp [doubtFree, e] at h

theorem from_table_sender_of {s : State} {f : Frame}
    (h : (isHolder s.mship.state && f.head.sender != s.straps.number
      && s.mship.table[f.head.sender].state != .absent && doubtFree s) = true) : FromTableSender s f := by
  simp only [Bool.and_eq_true, bne_iff_ne] at h
  exact ⟨h.1.1.1, h.1.1.2, h.1.2, no_known_of h.2⟩

/-- The test of `Applies`. -/
def appliesB (s : State) (f : Frame) : Bool :=
  hearsB s f && (isHolder s.mship.state && f.head.sender != s.straps.number
      && s.mship.table[f.head.sender].state != .absent && doubtFree s)
    && f.head.seq == s.mship.table[f.head.sender].lastSeq + 1
    && s.apply.staging.all fun st => st.sender != s.straps.number

theorem applies_of {s : State} {f : Frame} (h : appliesB s f = true) : Applies s f := by
  simp only [appliesB, Bool.and_eq_true (a := hearsB s f && _ && _), Bool.and_eq_true (a := hearsB s f && _),
    Bool.and_eq_true (a := hearsB s f), beq_iff_eq] at h
  obtain ⟨⟨⟨h1, h2⟩, h3⟩, h4⟩ := h
  refine ⟨hears_of h1, from_table_sender_of h2, h3, ?_⟩
  intro st e
  simpa [e] using h4

/-- A request in hand at a running station is in hand. -/
theorem in_hand {s : State} {code : Byte} {args : List Byte} (h : s.straps.inReset = false) :
    InHand code args (hand code args s) := ⟨h, rfl⟩

theorem store_of_empty {s : State} (h : s.mem = []) : StoreLaw s := by
  refine ⟨?_, ?_⟩ <;> simp [h, Memory.wf]

theorem m3_store : StoreLaw m3 := store_of_empty rfl

theorem m3_port : PortLaw m3 := by
  unfold PortLaw
  decide +kernel

theorem m3_lock : LockLaw m3 := by
  unfold LockLaw
  decide +kernel

theorem m3_table : TableLaw m3 := by
  refine ⟨?_, ?_, ?_⟩
  · intro x hx
    have e : x = 7 := by revert x; decide +kernel
    subst e
    exact ⟨⟨5, by decide +kernel⟩, 0, by decide +kernel⟩
  · decide +kernel
  · decide +kernel

theorem m3_group : GroupLaw m3 := by
  refine ⟨m3_lock, m3_table, ?_, ?_⟩
  · unfold SponsorLaw
    decide +kernel
  · refine ⟨by decide +kernel, by decide +kernel, by decide +kernel, by decide +kernel, ?_, ?_⟩
    · rintro (⟨sl, h, -⟩ | ⟨e, h, -⟩)
      · exact absurd h (by simp [m3, State.reset, Transmit.reset])
      · exact absurd h (by simp [m3, State.reset, Transmit.reset])
    · intro sl h
      exact absurd h (by simp [m3, State.reset, Transmit.reset])

theorem m3_capacity : CapacityLaw m3 := by
  refine ⟨by decide +kernel, ?_, by decide +kernel, by decide +kernel, by decide +kernel, by decide +kernel⟩
  intro b h
  exact absurd h (by simp [m3, State.reset])

/-- The lowest free ticket of a port that has used k tickets and has room. -/
def issuableB (k : TicketNo) (p : HostPort) : Bool :=
  p.tickets[k].isNone && (List.finRange 16).all (fun j => !decide (j < k) || p.tickets[j].isSome)
    && decide (p.notices.length + reserved p < 32)

theorem issuable_of {k : TicketNo} {p : HostPort} (h : issuableB k p = true) : Issuable k p := by
  simp only [issuableB, Bool.and_eq_true, List.all_eq_true, decide_eq_true_eq, Option.isNone_iff_eq_none,
    Bool.or_eq_true, Bool.not_eq_true', decide_eq_false_iff_not] at h
  obtain ⟨⟨h1, h2⟩, h3⟩ := h
  refine ⟨h1, fun j hj e => ?_, h3⟩
  rcases h2 j (List.mem_finRange j) with h | h
  · exact h hj
  · simp [e] at h

/-- The test of `SoleLive`. -/
def soleLiveB (k : TicketNo) (t : Ticket) (p : HostPort) : Bool :=
  p.tickets[k] == some t && t.state != .done
    && (List.finRange 16).all fun j => p.tickets[j].all fun u =>
      !(u.kind == t.kind && u.arg == t.arg && u.state != .done) || j == k

theorem sole_live_of {k : TicketNo} {t : Ticket} {p : HostPort} (h : soleLiveB k t p = true) : SoleLive k t p := by
  simp only [soleLiveB, Bool.and_eq_true (a := _ && _), Bool.and_eq_true (a := p.tickets[k] == some t), beq_iff_eq,
    bne_iff_ne, List.all_eq_true] at h
  obtain ⟨⟨h1, h2⟩, h3⟩ := h
  refine ⟨h1, h2, fun j u hu hk ha hs => ?_⟩
  have := h3 j (List.mem_finRange j)
  simpa [hu, hk, ha, hs] using this

/-! ### Hypotheses met: the laws and the byte forms -/

theorem witness_EveryCommandCompletes :
    Instr.poll 0 ≠ .reset ∧ ∀ n r, Instr.poll 0 ≠ .resetRelease n r := ⟨nofun, nofun⟩

theorem witness_StepKeepsStoreLaw : ∃ t, StoreLaw m3 ∧ step m3 = .next t := ⟨_, m3_store, rfl⟩

theorem witness_StepKeepsPortLaw : ∃ t, PortLaw m3 ∧ step m3 = .next t := ⟨_, m3_port, rfl⟩

theorem witness_StepKeepsGroupLaw : ∃ t, GroupLaw m3 ∧ step m3 = .next t := ⟨_, m3_group, rfl⟩

theorem witness_StepKeepsCapacityLaw : ∃ t, CapacityLaw m3 ∧ step m3 = .next t := ⟨_, m3_capacity, rfl⟩

theorem witness_WireRoundTrip : frameOkAt 3 ⟨head 5 255, .signal (some 15) (List.replicate 8 0xFF)⟩ = true := by decide

theorem witness_HeardBytesActAsTheirFrame :
    m3.bus.state ≠ .sending ∧ frameOkAt m3.straps.number ⟨head 5 21, .leave⟩ = true := by decide +kernel

theorem witness_NothingHappensInReset :
    ∃ s : State, s.straps.inReset = true ∧ Instr.poll 0 ≠ .reset ∧ ∀ n r, Instr.poll 0 ≠ .resetRelease n r :=
  ⟨{ m3 with straps := { m3.straps with inReset := true } }, rfl, nofun, nofun⟩

/-! ### Hypotheses met: the host port and the requests -/

theorem witness_PollShowsStatusByte : Running m3 := rfl

theorem witness_FetchAnswersByPortState :
    Running m3 ∧ m3.port.phase = .idle ∧ (hand 0x01 [] m3).port.phase = .working { code := 0x01, args := [] }
      ∧ (answered .empty [] m3).port.phase = .holding { code := .empty, body := [] } ∧ 0 < 3 := ⟨rfl, rfl, rfl, rfl, by decide⟩

/-- Framing judged at the last code and the longest length, at their successors, and at a busy port; a request in hand that
its own command carries out, the event that comes after it, and no command waiting. -/
theorem witness_RequestTakenWhenIdle :
    Running m3 ∧ m3.port.phase = .idle ∧ (hand 0x01 [] m3).port.phase ≠ .idle
      ∧ (0x1F : Byte) ≠ 0x00 ∧ (0x1F : Byte) ≠ 0x80
      ∧ ¬ (31 < (0x1F : Byte).toNat ∨ (0x21 : Byte) :: List.replicate 33 0 = []
        ∨ ∃ len args, (0x21 : Byte) :: List.replicate 33 (0 : Byte) = len :: args
          ∧ (33 < len.toNat ∨ args.length ≠ len.toNat ∨ ∃ n, fixedLength 0x1F = some n ∧ len.toNat ≠ n))
      ∧ 31 < (0x20 : Byte).toNat
      ∧ 33 < (0x22 : Byte).toNat
      ∧ (hand 0x16 [0xFF, 1] m3).port.phase = .working { code := 0x16, args := [0xFF, 1] }
      ∧ (after (requestCommand 0x16) (hand 0x16 [0xFF, 1] m3)).isSome = true
      ∧ isEvent (.yieldFrame (head 5 21) 2) = true ∧ (hand 0x16 [0xFF, 1] m3).pending = [] := by
  refine ⟨rfl, rfl, by decide +kernel, by decide, by decide, ?_, by decide, by decide, rfl, by decide +kernel, rfl, rfl⟩
  rintro (h | h | ⟨len, args, h, h'⟩)
  · exact absurd h (by decide)
  · exact absurd h (by decide)
  · injection h with h1 h2
    subst h1; subst h2
    have e : fixedLength 0x1F = none := by decide
    rcases h' with h' | h' | ⟨n, h', -⟩
    · exact absurd h' (by decide)
    · exact absurd h' (by decide)
    · rw [e] at h'
      exact absurd h' (by simp)

/-- The codes at both ends of both ranges. -/
theorem witness_UnassignedCodeRefused :
    ∀ c ∈ [(0x0B : Byte), 0x0F, 0x17, 0x1F], InHand c [] (hand c [] m3)
      ∧ ((0x0B ≤ c.toNat ∧ c.toNat ≤ 0x0F) ∨ (0x17 ≤ c.toNat ∧ c.toNat ≤ 0x1F)) := by
  intro c hc
  refine ⟨in_hand rfl, ?_⟩
  revert c; decide

theorem witness_StatusReportsStation : InHand 0x01 [] (hand 0x01 [] m3) := in_hand rfl

/-- The repeat limit at 7 and at 8, in UNCONFIGURED and past it. -/
theorem witness_ConfigureSetsStation :
    InHand 0x02 [7, 1] (hand 0x02 [7, 1] (inState .unconfigured m3))
      ∧ InHand 0x02 [8, 1] (hand 0x02 [8, 1] m3) ∧ InHand 0x02 [1, 0] (hand 0x02 [1, 0] m3)
      ∧ (1 ≤ (7 : Byte).toNat ∧ (7 : Byte).toNat ≤ 7) ∧ ¬ (8 : Byte).toNat ≤ 7 ∧ m3.mship.state ≠ .unconfigured :=
  ⟨in_hand rfl, in_hand rfl, in_hand rfl, by decide, by decide, by decide +kernel⟩

/-- m3 with an upset outstanding in a cell. -/
def upsetAt (c : CellIx) (s : State) : State := { s with cells := s.cells.set c.val { s.cells[c] with upset := true } }

/-- m3 as the one MEMBER of its group. -/
def alone : State :=
  { m3 with mship := { m3.mship with table := (Vector.replicate 16 absentEntry).set 3 (entry .member 10) } }

/-- The last 16 cells, and 17 cells from there; in and out of MEMBER; cell 255 failing in a free region and cell 0 in one
that another MEMBER holds; another station to ask, and none. -/
theorem witness_ReadCellsVerifies :
    InHand 0x03 [0xF0, 16] (hand 0x03 [0xF0, 16] (upsetAt 255 m3)) ∧ InHand 0x03 [0xF0, 17] (hand 0x03 [0xF0, 17] m3)
      ∧ ((1 ≤ (16 : Byte).toNat ∧ (16 : Byte).toNat ≤ 16)
        ∧ (0xF0 : Byte).toNat / 16 = ((0xF0 : Byte).toNat + (16 : Byte).toNat - 1) / 16)
      ∧ ¬ (17 : Byte).toNat ≤ 16 ∧ (inState .outside m3).mship.state ≠ .member ∧ m3.mship.state = .member
      ∧ m3.mend = { cells := [], current := none }
      ∧ ((List.finRange 256).filter fun c => decide (0xF0 ≤ c.val ∧ c.val < 0x100)
          && decide ((upsetAt 255 m3).cells[c].status ≠ .damaged ∧ statusAfterRead (upsetAt 255 m3) c = .damaged)) = [255]
      ∧ m3.locks[regionOf 255].holder = none ∧ NextAsked m3 0 5 ∧ m3.locks[regionOf 0].holder = some 5
      ∧ (5 : Station) ≠ m3.straps.number ∧ m3.mship.table[(5 : Station)].state = .member ∧ NoneLeft alone 0
      ∧ alone.port.notices.length + reserved alone.port + 1 ≤ 32 := by
  refine ⟨in_hand rfl, in_hand rfl, by decide, by decide, by decide +kernel, rfl, rfl, by decide +kernel, by decide +kernel,
    ?_, by decide +kernel, by decide +kernel, by decide +kernel, ?_, by decide +kernel⟩
  · unfold NextAsked
    decide +kernel
  · unfold NoneLeft
    decide +kernel

/-- A draft of n cells of the low regions. -/
def draftOf (n : Nat) (s : State) : State :=
  { s with bundle := { s.bundle with draft := (List.range n).map fun i => { cell := Fin.ofNat 256 i, data := zeroData } } }

/-- Region 1 is held: a cell staged already, the draft at 31 and at 32 cells, a region of another holder. -/
theorem witness_StageCellFillsDraft :
    InHand 0x08 (0x10 :: zeroData.toList) (hand 0x08 (0x10 :: zeroData.toList) m3)
      ∧ m3.mship.state = .member ∧ m3.locks[regionOf 0x10].holder = some m3.straps.number
      ∧ (∃ e ∈ (draftOf 32 m3).bundle.draft, e.cell = 0x10) ∧ (¬ ∃ e ∈ (draftOf 16 m3).bundle.draft, e.cell = 0x10)
      ∧ (draftOf 31 m3).bundle.draft.length < 32 ∧ 32 ≤ (draftOf 32 m3).bundle.draft.length
      ∧ (¬ ∃ e ∈ (draftOf 32 m3).bundle.draft, e.cell = 0xF0)
      ∧ m3.locks[regionOf 0x00].holder ≠ some m3.straps.number ∧ (inState .leaving m3).mship.state ≠ .member :=
  ⟨in_hand rfl, by decide +kernel⟩

theorem witness_UnstageAndDiscard :
    InHand 0x09 [5] (hand 0x09 [5] (draftOf 6 m3)) ∧ InHand 0x0A [] (hand 0x0A [] m3)
      ∧ (∃ e ∈ (draftOf 6 m3).bundle.draft, e.cell = 5) ∧ (¬ ∃ e ∈ (draftOf 5 m3).bundle.draft, e.cell = 5)
      ∧ (inState .outside m3).mship.state ≠ .member ∧ (inState .outside m3).bundle.draft = [] :=
  ⟨in_hand rfl, in_hand rfl, by decide +kernel⟩

/-- m3 with notices queued. -/
def noted (ns : List Notice) (s : State) : State := { s with port := { s.port with notices := ns } }

theorem witness_TakeNoticeRemovesOldest :
    InHand 0x06 [] (hand 0x06 [] m3) ∧ m3.port.notices = []
      ∧ (noted [.completion 15 .claim .granted] m3).port.notices = [.completion 15 .claim .granted]
      ∧ (noted [.lineFault] m3).port.notices = [.lineFault] ∧ ∀ k kind o, Notice.lineFault ≠ .completion k kind o :=
  ⟨in_hand rfl, rfl, rfl, rfl, nofun⟩

/-- Reset; a set in hand; three bytes; a region watched and one not; a peer's bundle that writes DAMAGED cell 40 of the
watched region 2. -/
theorem witness_SetWatchReplacesSet :
    let s : State := { m3 with port := { m3.port with watch := 0x0004 } }
    let w : WriteBody := { more := false, index := 0, count := 1
                           records := [{ cell := 40, version := 9, data := zeroData }] }
    (after .reset m3).isSome = true ∧ InHand 0x07 [0x80, 0x01] (hand 0x07 [0x80, 0x01] m3)
      ∧ Running m3 ∧ m3.port.phase = .idle ∧ [(1 : Byte), 2, 3].length ≠ 2
      ∧ (∀ args, (hand 0x01 [] m3).port.phase ≠ .working { code := 0x07, args := args })
      ∧ (∀ rq, m3.port.phase ≠ .working rq) ∧ flag m3.port.watch 2 = false
      ∧ (Applies s ⟨head 5 21, .write w⟩ ∧ s.apply.staging = none ∧ s.locks[regionOf 40].holder = some 5
          ∧ s.cells[(40 : CellIx)].status = .damaged ∧ regionOf 40 = 2 ∧ flag s.port.watch 2 = true
          ∧ (after (.writeFrame (head 5 21) w) s).isSome = true)
      ∧ (after .status (hand 0x01 [] m3)).isSome = true :=
  ⟨by decide +kernel, in_hand rfl, rfl, rfl, by decide, nofun, nofun, by decide +kernel,
    ⟨applies_of (by decide +kernel), rfl, by decide +kernel, by decide +kernel, by decide +kernel, by decide +kernel,
      by decide +kernel⟩, by decide +kernel⟩

/-- The last region, and the first byte above it; join places none and 0. -/
theorem witness_TablesReadBack :
    InHand 0x04 [0x0F] (hand 0x04 [0x0F] m3) ∧ (0x0F : Byte).toNat = (15 : Region).val
      ∧ InHand 0x04 [0x10] (hand 0x04 [0x10] m3) ∧ 16 ≤ (0x10 : Byte).toNat ∧ InHand 0x05 [] (hand 0x05 [] m3)
      ∧ m3.mship.table[7].joinPlace = some 0 ∧ m3.mship.table[5].joinPlace = none :=
  ⟨in_hand rfl, by decide, in_hand rfl, by decide, in_hand rfl, by decide +kernel⟩

/-- A port with every ticket in use, DONE, so that none can be issued. -/
def noTicketLeft (s : State) : State :=
  { s with port := { s.port with tickets := Vector.replicate 16 (some { waitingClaim with state := .done, arg := .none }) } }

theorem none_issuable (s : State) (k : TicketNo) : ¬ Issuable k (noTicketLeft s).port := by
  rintro ⟨h, -⟩
  have e : (noTicketLeft s).port.tickets[k] = some { waitingClaim with state := .done, arg := .none } := by
    simp [noTicketLeft]
  rw [h] at e
  exact absurd e (by simp)

theorem witness_JoinAccepted :
    InHand 0x10 [] (hand 0x10 [] (inState .outside m3)) ∧ (inState .outside m3).mship.state = .outside
      ∧ Issuable 1 (hand 0x10 [] (inState .outside m3)).port ∧ m3.mship.state ≠ .outside
      ∧ ∀ k, ¬ Issuable k (noTicketLeft m3).port :=
  ⟨in_hand rfl, rfl, issuable_of (by decide +kernel), by decide +kernel, none_issuable m3⟩

/-- Region 15 is free; region 1 is held, region 2 waited on; 16 is no region. -/
theorem witness_ClaimAccepted :
    InHand 0x12 [0x0F] (hand 0x12 [0x0F] m3) ∧ (0x0F : Byte).toNat = (15 : Region).val
      ∧ m3.mship.state = .member
      ∧ ¬ (m3.locks[(15 : Region)].holder = some m3.straps.number ∨ m3.straps.number ∈ m3.locks[(15 : Region)].waiters
        ∨ ∃ k t, m3.port.tickets[(k : TicketNo)] = some t ∧ t.kind = .claim ∧ t.arg = .region 15 ∧ t.state ≠ .done)
      ∧ Issuable 1 (hand 0x12 [0x0F] m3).port
      ∧ m3.straps.number ∈ m3.locks[(2 : Region)].waiters
      ∧ (inState .filling m3).mship.state ≠ .member ∧ (∀ k, ¬ Issuable k (noTicketLeft m3).port)
      ∧ InHand 0x12 [0x10] (hand 0x12 [0x10] m3) ∧ 16 ≤ (0x10 : Byte).toNat := by
  refine ⟨in_hand rfl, by decide, rfl, ?_, issuable_of (by decide +kernel), by decide +kernel, by decide +kernel,
    none_issuable m3, in_hand rfl, by decide⟩
  have none_for : ∀ k : TicketNo, m3.port.tickets[k].all (fun t => t.arg != .region 15) = true := by decide +kernel
  rintro (h | h | ⟨k, t, h, -, ha, -⟩)
  · exact absurd h (by decide +kernel)
  · exact absurd h (by decide +kernel)
  · have := none_for k
    simp [h, ha] at this

/-- Region 1 is held, with and without a staged cell; region 2 is not. -/
theorem witness_ReleaseAccepted :
    InHand 0x13 [0x01] (hand 0x13 [0x01] m3) ∧ (0x01 : Byte).toNat = (1 : Region).val ∧ m3.mship.state = .member
      ∧ m3.locks[(1 : Region)].holder = some m3.straps.number ∧ m3.locks[(2 : Region)].holder ≠ some m3.straps.number
      ∧ (∀ k : TicketNo, m3.port.tickets[k].all (fun t => t.kind == .claim) = true)
      ∧ (¬ ∃ e ∈ m3.bundle.draft, regionOf e.cell = 1) ∧ (∃ e ∈ (draftOf 17 m3).bundle.draft, regionOf e.cell = 1)
      ∧ Issuable 1 (hand 0x13 [0x01] m3).port
      ∧ (({ waitingClaim with kind := .release, arg := .region 1 } : Ticket).kind = .release)
      ∧ InHand 0x13 [0x10] (hand 0x13 [0x10] m3) ∧ 16 ≤ (0x10 : Byte).toNat
      ∧ (inState .leaving m3).mship.state ≠ .member ∧ ∀ k, ¬ Issuable k (noTicketLeft m3).port :=
  ⟨in_hand rfl, by decide, rfl, by decide +kernel, by decide +kernel, by decide +kernel, by decide +kernel,
    by decide +kernel, issuable_of (by decide +kernel), rfl, in_hand rfl, by decide, by decide +kernel, none_issuable m3⟩

/-- m3 with its CLAIM ticket in another state. -/
def claimIn (st : TicketState) (s : State) : State :=
  { s with port := { s.port with tickets := s.port.tickets.set 0 (some { waitingClaim with state := st }) } }

/-- Every ticket in use, ticket 0 still the waiting CLAIM. -/
def oneLiveOf16 (s : State) : State :=
  let done : Ticket := { waitingClaim with state := .done, arg := .none }
  { s with port := { s.port with tickets := (Vector.replicate 16 (some done)).set 0 (some waitingClaim) } }

/-- A WITHDRAW of region 2 under ticket 1 beside the CLAIM. -/
def withdrawStands (s : State) : State :=
  let standing : Ticket := { kind := .withdraw, state := .queued, arg := .region 2, link := some 0 }
  { s with port := { s.port with tickets := s.port.tickets.set 1 (some standing) } }

/-- The one CLAIM waits or is QUEUED, no WITHDRAW stands or one does; region 3 has no claim; no ticket is free. -/
theorem witness_WithdrawGivesUpClaim :
    InHand 0x14 [0x02] (hand 0x14 [0x02] m3) ∧ (0x02 : Byte).toNat = (2 : Region).val ∧ m3.mship.state = .member
      ∧ SoleLive 0 waitingClaim m3.port ∧ SoleLive 0 { waitingClaim with state := .queued } (claimIn .queued m3).port
      ∧ (∀ k : TicketNo, m3.port.tickets[k].all (fun t => t.kind != .withdraw) = true)
      ∧ Issuable 1 (hand 0x14 [0x02] m3).port
      ∧ (∀ k : TicketNo, m3.port.tickets[k].all (fun t => t.arg != .region 3) = true)
      ∧ SoleLive 0 waitingClaim (withdrawStands m3).port
      ∧ (withdrawStands m3).port.tickets[1] =
        some { kind := .withdraw, state := .queued, arg := .region 2, link := some 0 }
      ∧ SoleLive 0 waitingClaim (oneLiveOf16 m3).port
      ∧ (∀ k : TicketNo, (oneLiveOf16 m3).port.tickets[k].any (fun t => t.kind != .withdraw) = true)
      ∧ InHand 0x14 [0x10] (hand 0x14 [0x10] m3) ∧ 16 ≤ (0x10 : Byte).toNat
      ∧ (inState .leaving m3).mship.state ≠ .member :=
  ⟨in_hand rfl, by decide, rfl, sole_live_of (by decide +kernel), sole_live_of (by decide +kernel), by decide +kernel,
    issuable_of (by decide +kernel), by decide +kernel, sole_live_of (by decide +kernel), by decide +kernel,
    sole_live_of (by decide +kernel), by decide +kernel, in_hand rfl, by decide, by decide +kernel⟩

/-- An outgoing bundle of n cells under ticket 0, at fragment index i. -/
def bundleOf (n i : Nat) : Outgoing :=
  { entries := (List.range n).map fun j => { cell := Fin.ofNat 256 j, data := zeroData }, ticket := 0, next := i }

/-- That bundle in the outgoing bundle buffer. -/
def sending (n i : Nat) (s : State) : State :=
  { s with bundle := { s.bundle with outgoing := some (bundleOf n i) } }

theorem witness_CommitMovesDraft :
    InHand 0x15 [] (hand 0x15 [] (draftOf 1 m3)) ∧ m3.mship.state = .member ∧ (draftOf 1 m3).bundle.draft ≠ []
      ∧ (draftOf 1 m3).bundle.outgoing = none ∧ Issuable 1 (hand 0x15 [] (draftOf 1 m3)).port
      ∧ m3.bundle.draft = [] ∧ (sending 1 0 m3).bundle.outgoing ≠ none ∧ (inState .leaving m3).mship.state ≠ .member
      ∧ ∀ k, ¬ Issuable k (noTicketLeft (draftOf 1 m3)).port :=
  ⟨in_hand rfl, rfl, by decide +kernel, rfl, issuable_of (by decide +kernel), rfl, by simp [sending], by decide +kernel,
    none_issuable _⟩

/-- One byte and eight bytes, to all and to MEMBER 9; station 8 is ABSENT; refused are no byte, nine bytes, the own
number 3 and the target 16. -/
theorem witness_SignalAccepted :
    InHand 0x16 (0xFF :: List.replicate 8 1) (hand 0x16 (0xFF :: List.replicate 8 1) m3)
      ∧ InHand 0x16 [0x09, 1] (hand 0x16 [0x09, 1] m3) ∧ m3.mship.state = .member
      ∧ (List.replicate 8 (1 : Byte)).length ≤ 8 ∧ Issuable 1 (hand 0x16 [0x09, 1] m3).port
      ∧ (0x09 : Byte).toNat = (9 : Station).val ∧ (9 : Station) ≠ m3.straps.number
      ∧ m3.mship.table[9].state = .member ∧ m3.mship.table[8].state ≠ .member
      ∧ InHand 0x16 [0xFF] (hand 0x16 [0xFF] m3)
      ∧ InHand 0x16 (9 :: List.replicate 9 1) (hand 0x16 (9 :: List.replicate 9 1) m3)
      ∧ InHand 0x16 [3, 1] (hand 0x16 [3, 1] m3) ∧ (3 : Byte).toNat = m3.straps.number.val
      ∧ InHand 0x16 [16, 1] (hand 0x16 [16, 1] m3) ∧ ¬ (16 : Byte).toNat < 16
      ∧ (inState .filling m3).mship.state ≠ .member ∧ ∀ k, ¬ Issuable k (noTicketLeft m3).port :=
  ⟨in_hand rfl, in_hand rfl, rfl, by decide, issuable_of (by decide +kernel), by decide, by decide +kernel,
    by decide +kernel, by decide +kernel, in_hand rfl, in_hand rfl, in_hand rfl, by decide, in_hand rfl, by decide,
    by decide +kernel, none_issuable m3⟩

theorem witness_LeaveAccepted :
    ∃ s, InHand 0x11 [] s ∧ s.mship.state = .member ∧ Issuable 1 s.port ∧ PortLaw s
      ∧ (claimIn .queued m3).port.tickets[0] = some { waitingClaim with state := .queued }
      ∧ (inState .filling m3).mship.state ≠ .member ∧ ∀ k, ¬ Issuable k (noTicketLeft m3).port :=
  ⟨hand 0x11 [] m3, in_hand rfl, rfl, issuable_of (by decide +kernel), m3_port, by decide +kernel, by decide +kernel,
    none_issuable m3⟩

/-! ### Hypotheses met: carrier, turns and starts -/

theorem witness_CarrierBeginsOnIdleBus : NoneInHand m3 ∧ m3.bus.state = .idle := ⟨none_in_hand rfl, rfl⟩

/-- Station 3 as the sponsor of 7, at the end of its snapshot. -/
def sponsoring : State :=
  { m3 with
    mship := { m3.mship with
      table := table.set 7 { state := .joining, lastSeq := 30, sponsor := some 3, joinPlace := some 0 } }
    sponsor := { joiners := [7], cursor := 33 } }

theorem sponsoring_table : TableLaw sponsoring := by
  refine ⟨?_, by decide +kernel, by decide +kernel⟩
  intro x hx
  have e : x = 7 := by revert x; decide +kernel
  subst e
  exact ⟨⟨3, by decide +kernel⟩, 0, by decide +kernel⟩

/-- Station 3 with these lists of its Transmit Selector. -/
def selecting (tx : Transmit) (s : State) : State := { s with tx := tx }

theorem may_start_of {s : State} (h : noneInHandB s = true) (h1 : s.bus.state = .idle) (h2 : s.access.holdOff = none)
    (h3 : s.mship.listening = true) : MayStart s := ⟨none_in_hand h, h1, h2, h3⟩

/-- No timer runs out within k slots, and a gap is first passed then. -/
def firstMomentB (gap slots k : Nat) (s : State) : Bool :=
  k == gap - s.access.gapCount && decide (k ≤ slots)
    && (List.finRange 16).all (fun x => s.mship.silence[x].all fun v => decide (k < v))
    && s.mship.presence.all (fun v => decide (k < v)) && s.mship.listen.all (fun v => decide (k < v))
    && s.mend.current.all fun m => m.window.all fun v => decide (k < v)

theorem first_moment_of {gap slots k : Nat} {s : State} (h : firstMomentB gap slots k s = true) :
    FirstMoment gap slots k s := by
  simp only [firstMomentB, Bool.and_eq_true, beq_iff_eq, decide_eq_true_eq, List.all_eq_true, List.mem_finRange,
    Option.all_eq_true, forall_const] at h
  exact ⟨h.1.1.1.1.1, h.1.1.1.1.2, h.1.1.1.2, h.1.1.2, h.1.2, fun m v hm hv => h.2 m hm v hv⟩

/-- m3 with so many slots left of its presence timer, or none running. -/
def presenceIn (v : Option Nat) (s : State) : State := { s with mship := { s.mship with presence := v } }

/-- m3 on a bus that has been idle for n slots, its PRESENCE queued. -/
def waitingPresence (n : Nat) : State :=
  { m3 with tx := { m3.tx with presence := true }, access := { m3.access with gapCount := n } }

/-- m3 with an upset of cell 0, whose region 5 holds. -/
def upsetCell : State := { m3 with cells := m3.cells.set 0 { m3.cells[0] with upset := true } }

/-- The CLAIM of m3 QUEUED at the head of the send list, and the 12 slots that its turn gap takes with L unset; each entry of
the service queue; a joiner at cursor 0, at the last group and past it, alone and beside a CLAIM; a JOIN with its ticket and
without. A presence timer that runs out before the turn gap has passed, and one that does so after. A slot that starts a
frame on an empty queue, and one that brings a start nearer. A MENDREPLY's cell that fails at its build with no mend under
way, and its responder. -/
theorem witness_StartsTurnFrame :
    let e : SendEntry := { ticket := some 0, frame := .claim 2 }
    let s : State := selecting { m3.tx with sendList := [e] } (claimIn .queued m3)
    let stepped := fun s : State => match step s with
      | .next t => (t.bus.state, t.access.gapCount, t.tx.sendList)
      | _ => (.idle, 0, [])
    (∀ tx, MayStart (selecting tx m3) ∧ MayStart (selecting tx sponsoring) ∧ MayStart (selecting tx (inState .joinSent m3)))
      ∧ (∀ tx, FirstMoment (turnGap 3 none) 12 12 (selecting tx m3) ∧ FirstMoment (turnGap 3 none) 12 12 (selecting tx sponsoring)
        ∧ FirstMoment (turnGap 3 none) 12 12 (selecting tx (inState .joinSent m3)))
      ∧ MayStart s ∧ s.mship.state = .member ∧ (s.tx.slot = none ∧ s.tx.drops = [] ∧ s.tx.replies = [] ∧ s.tx.mend = none)
      ∧ s.tx.presence = false ∧ s.sponsor.joiners = [] ∧ s.bundle.outgoing = none ∧ s.tx.sendList = [e]
      ∧ s.port.tickets[(0 : TicketNo)] = some { waitingClaim with state := .queued }
      ∧ FirstMoment (turnGap s.straps.number s.access.reference) 12 12 s
      ∧ (∀ d ∈ [({ target := 7, reason := .silent, cls := .turn } : DropEntry)], d.cls = .turn)
      ∧ (({ m3.tx with replies := [{ requester := 9, cell := 255 }] } : Transmit).replies = [{ requester := 9, cell := 255 }])
      ∧ (({ m3.tx with mend := some { responder := 5, cell := 0 } } : Transmit).mend = some { responder := 5, cell := 0 })
      ∧ (({ m3.tx with presence := true } : Transmit).presence = true) ∧ m3.tx.lastSource = .hostList
      ∧ sponsoring.sponsor = { joiners := [7], cursor := 33 } ∧ (31 : Group).val + 1 = 32 ∧ (0 : Group).val + 1 = 1
      ∧ (inState .joinSent m3).mship.state = .joinSent
      ∧ (∀ v, MayStart (presenceIn v m3) ∧ isHolder (presenceIn v m3).mship.state = true)
      ∧ max 5 (turnGap 3 none - m3.access.gapCount) = 12 ∧ max 20 (turnGap 3 none - m3.access.gapCount) = 20
      ∧ NoneRunsOut 20 (presenceIn none m3)
      ∧ (∀ n, NoneInHand (waitingPresence n) ∧ (waitingPresence n).pending = [] ∧ (waitingPresence n).bus.state = .idle)
      ∧ stepped (waitingPresence 11) = (.sending, 12, []) ∧ stepped (waitingPresence 10) = (.idle, 11, [])
      ∧ upsetCell.mend = { cells := [], current := none } ∧ FirstAsked upsetCell 0 5 :=
  ⟨fun _ => ⟨may_start_of rfl rfl rfl rfl, may_start_of rfl rfl rfl rfl, may_start_of rfl rfl rfl rfl⟩,
    fun _ => ⟨first_moment_of (s := m3) (by decide +kernel), first_moment_of (s := sponsoring) (by decide +kernel),
      first_moment_of (s := inState .joinSent m3) (by decide +kernel)⟩,
    may_start_of rfl rfl rfl rfl, rfl, ⟨rfl, rfl, rfl, rfl⟩, rfl, rfl, rfl, rfl, by decide +kernel,
    first_moment_of (by decide +kernel), by decide, rfl, rfl, rfl, rfl, rfl, by decide, by decide, rfl,
    fun _ => ⟨may_start_of rfl rfl rfl rfl, rfl⟩, by decide, by decide,
    (first_moment_of (gap := 20) (slots := 20) (by decide +kernel)).2.2,
    fun _ => ⟨none_in_hand rfl, rfl, rfl⟩, by decide +kernel, by decide +kernel, rfl, .inl (by decide +kernel)⟩

/-- A bundle of 9 cells, one more than a fragment holds, at its first fragment and at its last, index 1. -/
theorem witness_StartsFirstFragment :
    let e : SendEntry := { ticket := some 0, frame := .commit }
    let s : State := selecting { m3.tx with sendList := [e] } (sending 9 0 (claimIn .queued m3))
    let w : WriteBody := { more := false, index := 1, count := 2, records := [{ cell := 8, version := 0, data := zeroData }] }
    MayStart s ∧ s.mship.state = .member ∧ (s.tx.slot = none ∧ s.tx.drops = [] ∧ s.tx.replies = [] ∧ s.tx.mend = none)
      ∧ s.tx.presence = false ∧ s.sponsor.joiners = [] ∧ s.tx.sendList = [e]
      ∧ (∃ b, s.bundle.outgoing = some b ∧ b.next = 0 ∧ b.entries ≠ [] ∧ b.ticket = 0)
      ∧ s.port.tickets[(0 : TicketNo)] = some { waitingClaim with state := .queued }
      ∧ FirstMoment (turnGap s.straps.number s.access.reference) 12 12 s
      ∧ MayStart (sending 9 1 m3) ∧ (sending 9 1 m3).bundle.outgoing = some (bundleOf 9 1)
      ∧ w.index = (bundleOf 9 1).next ∧ w.count = ((bundleOf 9 1).entries.length + 7) / 8 ∧ w.index < w.count
      ∧ w.records.map (fun r => (r.cell, r.data))
        = (((bundleOf 9 1).entries.drop (8 * (bundleOf 9 1).next)).take 8).map (fun e => (e.cell, e.data))
      ∧ FirstMoment 4 4 4 (sending 9 1 m3) :=
  ⟨may_start_of rfl rfl rfl rfl, rfl, ⟨rfl, rfl, rfl, rfl⟩, rfl, rfl, rfl, ⟨bundleOf 9 0, rfl, rfl, by simp [bundleOf], rfl⟩,
    by decide +kernel, first_moment_of (by decide +kernel), may_start_of rfl rfl rfl rfl, rfl, rfl, by decide, by decide,
    by decide +kernel, first_moment_of (by decide +kernel)⟩

/-- A PRESENCE heard, at the repeat gap, also in AWAIT_STATE and FILLING, and a JOIN in JOIN_SENT; a settlement DROP behind a
turn DROP; a PRESENCE not heard, at its turn gap. -/
theorem witness_StartsRepeat :
    let drops : List DropEntry := [{ target := 9, reason := .silent, cls := .turn }
                                  , { target := 7, reason := .noAck, cls := .settlement }]
    let unheard : Slot := { slotOf .presence with heard := false, gap := .turn }
    (∀ st sl, MayStart (withSlot sl (inState st m3)) ∧ (withSlot sl (inState st m3)).mship.state = st
        ∧ FirstMoment 2 2 2 (withSlot sl (inState st m3)) ∧ FirstMoment (turnGap 3 none) 12 12 (withSlot sl (inState st m3)))
      ∧ (∀ body, (slotOf body).heard = true ∧ (slotOf body).gap = .repeatGap ∧ (slotOf body).frame.body = body)
      ∧ MayStart (selecting { m3.tx with drops := drops } m3) ∧ (selecting { m3.tx with drops := drops } m3).tx.slot = none
      ∧ drops = drops.take 1 ++ { target := 7, reason := .noAck, cls := .settlement } :: []
      ∧ (∀ d ∈ drops.take 1, d.cls = .turn) ∧ FirstMoment 2 2 2 (selecting { m3.tx with drops := drops } m3)
      ∧ unheard.heard = false ∧ gapSlots unheard.gap (withSlot unheard m3) = turnGap 3 none :=
  ⟨fun _ _ => ⟨may_start_of rfl rfl rfl rfl, rfl, first_moment_of (s := m3) (by decide +kernel),
      first_moment_of (s := m3) (by decide +kernel)⟩, fun _ => ⟨rfl, rfl, rfl⟩, may_start_of rfl rfl rfl rfl, rfl, rfl,
    by decide, first_moment_of (by decide +kernel), rfl, rfl⟩

/-! ### Hypotheses met: frames of peers -/

theorem witness_PresenceRecordsSender : Applies m3 ⟨head 5 21, .presence⟩ := applies_of (by decide +kernel)

/-- A free region, the claimer's own, one it waits on, one of another holder, and a JOINING claimer. -/
theorem witness_ClaimTakesRegionOrWaits :
    Applies m3 ⟨head 9 41, .claim 15⟩ ∧ Applies m3 ⟨head 5 21, .claim 0⟩ ∧ Applies m3 ⟨head 9 41, .claim 4⟩
      ∧ Applies m3 ⟨head 9 41, .claim 0⟩ ∧ Applies m3 ⟨head 7 31, .claim 15⟩
      ∧ m3.mship.table[9].state = .member ∧ m3.locks[(15 : Region)].holder = none
      ∧ m3.locks[(0 : Region)].holder = some 5 ∧ (9 : Station) ∈ m3.locks[(4 : Region)].waiters
      ∧ (9 : Station) ∉ m3.locks[(0 : Region)].waiters ∧ m3.mship.table[7].state = .joining :=
  ⟨applies_of (by decide +kernel), applies_of (by decide +kernel), applies_of (by decide +kernel),
    applies_of (by decide +kernel), applies_of (by decide +kernel), by decide +kernel⟩

theorem witness_YieldPassesRegion :
    Applies m3 ⟨head 5 21, .yield 0⟩ ∧ Applies m3 ⟨head 5 21, .yield 4⟩ ∧ Applies m3 ⟨head 5 21, .yield 2⟩
      ∧ Applies m3 ⟨head 5 21, .yield 1⟩ ∧ SoleLive 0 waitingClaim m3.port
      ∧ m3.locks[(0 : Region)] = { holder := some 5, waiters := [] }
      ∧ m3.locks[(4 : Region)] = { holder := some 5, waiters := [9] }
      ∧ m3.locks[(2 : Region)] = { holder := some 5, waiters := [m3.straps.number] }
      ∧ m3.locks[(1 : Region)].holder ≠ some 5 :=
  ⟨applies_of (by decide +kernel), applies_of (by decide +kernel), applies_of (by decide +kernel),
    applies_of (by decide +kernel), sole_live_of (by decide +kernel), by decide +kernel⟩

/-- m3 driving a frame of a body that no station has heard yet, its ticket 0 of a kind and argument. -/
def driving (body : Body) (tk : Ticket) (s : State) : State :=
  { withSlot { slotOf body with heard := false } s with
    bus := { s.bus with state := .sending }
    port := { s.port with tickets := s.port.tickets.set 0 (some tk) } }

/-- A ticket that is SENDING. -/
def sendingTicket (kind : RequestKind) (arg : TicketArg) : Ticket :=
  { kind := kind, state := .sending, arg := arg, link := none }

theorem own_echo_of {body : Body} {tk : Ticket} {s : State} (h1 : noneInHandB s = true) (h2 : s.straps.number = 3)
    (h3 : s.mship.state = .member ∨ s.mship.state = .leaving) (h4 : doubtFree s = true)
    (h5 : s.mship.table[s.straps.number].state ≠ .absent) :
    OwnEcho { slotOf body with heard := false } (driving body tk s) :=
  ⟨none_in_hand h1, rfl, rfl, rfl, h3, h2.symm, no_known_of h4, h5⟩

theorem sponsoring_group (recs : Vector SnapRecord 8) (tk : Ticket) :
    GroupLaw (driving (.snapCells 7 31 recs) tk sponsoring) := by
  refine ⟨?_, sponsoring_table, ?_, ?_⟩
  · have h : LockLaw sponsoring := by
      unfold LockLaw
      decide +kernel
    exact h
  · have h : SponsorLaw sponsoring := by
      unfold SponsorLaw
      decide +kernel
    exact h
  · have h : sponsoring.mship.table[sponsoring.straps.number].state = .member := by decide +kernel
    refine ⟨fun _ => h, nofun, nofun, nofun, ?_, fun sl e => by cases e; rfl⟩
    rintro (⟨sl, e, h⟩ | ⟨e, h, -⟩)
    · cases e
      exact absurd h nofun
    · exact absurd h (by simp [driving, withSlot, sponsoring, m3, State.reset, Transmit.reset])

theorem leaving_group (tk : Ticket) : GroupLaw (driving .leave tk (inState .leaving m3)) := by
  refine ⟨m3_lock, m3_table, m3_group.2.2.1, nofun, nofun, fun _ => ?_, nofun, fun _ => rfl, fun sl e => by cases e; rfl⟩
  have h : m3.mship.table[m3.straps.number].state ≠ .joining := by decide +kernel
  exact h

/-- The last fragment of a bundle with one record for cell 16, in a region that station 3 holds. -/
def ownFragment (index : Nat) : WriteBody :=
  { more := false, index := index, count := index + 1, records := [{ cell := 16, version := 1, data := zeroData }] }

/-- m3 with a bundle of its own in progress under ticket 0. -/
def committing (s : State) : State :=
  { s with bundle := { draft := [], outgoing := some { entries := [], ticket := 0, next := 0 } } }

/-- The CLAIM of a free region and of one held by another; the YIELD of a RELEASE and of a WITHDRAW, as holder and as
waiter; the LEAVE; group 31; the last fragment of one and of two, with and without the region. -/
theorem witness_OwnClaimGranted :
    let s := driving (.claim 15) (sendingTicket .claim (.region 15)) m3
    (NoneInHand s ∧ s.mship.state = .member ∧ s.apply.doubt = .clear ∧ s.apply.staging = none
        ∧ s.mship.table[s.straps.number].state = .member ∧ s.locks[(15 : Region)].holder = none
        ∧ SoleLive 0 (sendingTicket .claim (.region 15)) s.port)
      ∧ (∀ body tk, OwnEcho { slotOf body with heard := false } (driving body tk m3)
        ∧ OwnEcho { slotOf body with heard := false } (driving body tk (inState .leaving m3))
        ∧ OwnEcho { slotOf body with heard := false } (driving body tk sponsoring))
      ∧ NoOwnStaging m3 ∧ m3.mship.table[m3.straps.number].state = .member
      ∧ m3.locks[(4 : Region)].holder = some 5 ∧ (3 : Station) ∉ m3.locks[(4 : Region)].waiters
      ∧ m3.locks[(1 : Region)].holder = some 3 ∧ m3.locks[(2 : Region)].holder = some 5
      ∧ (sendingTicket .release (.region 1)).kind = .release ∧ (sendingTicket .withdraw (.region 1)).state ≠ .done
      ∧ SoleLive 1 waitingClaim ((m3.port.tickets.set 0 none).set 1 (some waitingClaim) |>
          fun ts => { m3.port with tickets := ts.set 0 (some (sendingTicket .withdraw (.region 2))) })
      ∧ (∀ tk, GroupLaw (driving .leave tk (inState .leaving m3)))
      ∧ (∃ z : Station, z ≠ 3 ∧ m3.mship.table[z].state = .member)
      ∧ (∀ z : Station, z ≠ 3 → alone.mship.table[z].state ≠ .member)
      ∧ (∀ recs tk, GroupLaw (driving (.snapCells 7 31 recs) tk sponsoring)) ∧ sponsoring.sponsor.joiners = [7]
      ∧ (committing m3).bundle.outgoing = some { entries := [], ticket := 0, next := 0 }
      ∧ (ownFragment 0).index + 1 = (ownFragment 0).count ∧ (ownFragment 1).index = 1 ∧ (ownFragment 1).count = 2
      ∧ m3.locks[regionOf 16].holder = some 3 ∧ m3.cells[(16 : CellIx)].status = .present
      ∧ (1 : Version) = succVersion m3.cells[(16 : CellIx)].version ∧ m3.locks[regionOf 12].holder ≠ some 3
      ∧ StoreLaw m3 ∧ m3.mend.cells.Nodup :=
  ⟨⟨none_in_hand rfl, rfl, rfl, rfl, by decide +kernel, by decide +kernel, sole_live_of (by decide +kernel)⟩,
    fun _ _ => ⟨own_echo_of rfl rfl (.inl rfl) rfl (by decide +kernel), own_echo_of rfl rfl (.inr rfl) rfl (by decide +kernel),
      own_echo_of rfl rfl (.inl rfl) rfl (by decide +kernel)⟩,
    fun _ h => (by simp [m3, State.reset] at h), by decide +kernel, by decide +kernel, by decide +kernel, by decide +kernel,
    by decide +kernel, rfl, by decide, sole_live_of (by decide +kernel), leaving_group, by decide +kernel, by decide +kernel,
    sponsoring_group, rfl, rfl, rfl, rfl, rfl, by decide +kernel, by decide +kernel, by decide +kernel, by decide +kernel,
    m3_store, by decide +kernel⟩

/-- A newcomer, a MEMBER and the JOINING station 7, the last with a new sequence and with a repeat of the one recorded. -/
theorem witness_JoinAdmitsStation :
    Hears m3 ⟨head 8 200, .join true⟩ ∧ isHolder m3.mship.state = true ∧ (8 : Station) ≠ m3.straps.number
      ∧ (∀ x q, m3.apply.doubt ≠ .known x q) ∧ NoOwnStaging m3 ∧ m3.mship.table[8].state = .absent
      ∧ m3.mship.table[3].state = .member ∧ (∀ y : Station, y < 3 → m3.mship.table[y].state ≠ .member)
      ∧ Hears m3 ⟨head 5 200, .join false⟩ ∧ m3.mship.table[5].state = .member ∧ GroupLaw m3 ∧ m3.mship.state = .member
      ∧ Hears m3 ⟨head 7 31, .join false⟩ ∧ m3.mship.table[7].state = .joining
      ∧ Hears m3 ⟨{ sender := 7, repeated := true, seq := 30 }, .join false⟩ ∧ m3.mship.table[7].lastSeq = 30 :=
  ⟨hears_of (by decide +kernel), rfl, by decide +kernel, no_known_of rfl, fun _ h => (by simp [m3, State.reset] at h),
    by decide +kernel, by decide +kernel, by decide +kernel, hears_of (by decide +kernel), by decide +kernel, m3_group, rfl,
    hears_of (by decide +kernel), by decide +kernel, hears_of (by decide +kernel), by decide +kernel⟩

/-- Images in which station 5 sponsors station 3. -/
def fillImages : Images :=
  { members := ((Vector.replicate 16 absentEntry).set 5 (entry .member 20)).set 3
      { state := .joining, lastSeq := 10, sponsor := some 5, joinPlace := some 0 }
    locks := Vector.replicate 16 freeRegion }

/-- The JOIN ticket of a station that fills. -/
def waitingJoin : Ticket := { kind := .join, state := .waiting, arg := .none, link := none }

/-- Station 3 FILLING from station 5, cell 248 marked fresh. -/
def filling3 : State :=
  { m3 with
    cells := m3.cells.set 248 { m3.cells[248] with fresh := true }
    locks := Vector.replicate 16 freeRegion
    mship := { m3.mship with state := .filling, table := fillImages.members, silence := Vector.replicate 16 none }
    port := { m3.port with tickets := (Vector.replicate 16 none).set 0 (some waitingJoin) } }

theorem filling3_group : GroupLaw filling3 := by
  refine ⟨?_, ⟨?_, by decide +kernel, by decide +kernel⟩, ?_, by decide +kernel, by decide +kernel, by decide +kernel,
    by decide +kernel, ?_, ?_⟩
  · unfold LockLaw
    decide +kernel
  · intro x hx
    have e : x = 3 := by revert x; decide +kernel
    subst e
    exact ⟨⟨5, by decide +kernel⟩, 0, by decide +kernel⟩
  · unfold SponsorLaw
    decide +kernel
  · rintro (⟨sl, h, -⟩ | ⟨e, h, -⟩)
    · exact absurd h (by simp [filling3, m3, State.reset, Transmit.reset])
    · exact absurd h (by simp [filling3, m3, State.reset, Transmit.reset])
  · intro sl h
    exact absurd h (by simp [filling3, m3, State.reset, Transmit.reset])

theorem filling3_port : PortLaw filling3 := by
  unfold PortLaw
  decide +kernel

/-- Station 3 FILLING with the one MEMBER 5 as its sponsor, and at m3 a LEAVE and a DROP of the joiner for each reason. -/
theorem witness_RemovalClearsStation :
    Applies m3 ⟨head 5 21, .leave⟩ ∧ Applies m3 ⟨head 9 41, .drop 7 .silent⟩ ∧ Applies m3 ⟨head 9 41, .drop 5 .noAck⟩
      ∧ GroupLaw m3 ∧ PortLaw m3 ∧ m3.mship.state = .member ∧ m3.mship.table[9].state = .member
      ∧ (7 : Station) ≠ m3.straps.number ∧ m3.mship.table[7].state ≠ .absent
      ∧ GroupLaw filling3 ∧ PortLaw filling3 ∧ filling3.mship.table[5].state = .member
      ∧ (∀ y : Station, y ≠ 5 → filling3.mship.table[y].state ≠ .member)
      ∧ Applies filling3 ⟨head 5 21, .leave⟩ ∧ Hears filling3 ⟨head 5 200, .join true⟩
      ∧ FromTableSender filling3 ⟨head 5 200, .join true⟩ ∧ NoOwnStaging filling3 :=
  ⟨applies_of (by decide +kernel), applies_of (by decide +kernel), applies_of (by decide +kernel), m3_group, m3_port,
    rfl, by decide +kernel, by decide +kernel, by decide +kernel, filling3_group, filling3_port, by decide +kernel,
    by decide +kernel, applies_of (by decide +kernel), hears_of (by decide +kernel), from_table_sender_of (by decide +kernel),
    fun _ h => (by simp [filling3, m3, State.reset] at h)⟩

/-- m3 with a sequence of station 5 known to be missed. -/
def inDoubt : State := { m3 with apply := { m3.apply with doubt := .known 5 22 } }

theorem witness_DropOfThisStationDeparts :
    Hears m3 ⟨head 9 41, .drop 3 .silent⟩ ∧ NextInSequence m3 ⟨head 9 41, .drop 3 .silent⟩
      ∧ Hears inDoubt ⟨head 9 200, .drop 3 .noAck⟩ ∧ inDoubt.apply.doubt = .known 5 22
      ∧ isHolder m3.mship.state = true ∧ m3.mship.table[9].state = .member ∧ NoOwnStaging m3 ∧ PortLaw m3
      ∧ PortLaw inDoubt :=
  ⟨hears_of (by decide +kernel), (by unfold NextInSequence; decide +kernel), hears_of (by decide +kernel), rfl, rfl,
    by decide +kernel, fun _ h => (by simp [m3, State.reset] at h), m3_port, m3_port⟩

/-- m3 with the first fragment of a bundle of two from station 5 staged. -/
def firstOfTwo : Staging :=
  { sender := 5, count := 2, expected := 1, records := (List.range 8).map fun i => record (Fin.ofNat 256 i) }

/-- m3 with a staging. -/
def withStaging (st : Staging) (s : State) : State := { s with apply := { s.apply with staging := some st } }

/-- m3 with that fragment staged. -/
def staged : State := withStaging firstOfTwo m3

/-- A fragment of one record. -/
def fragment (index count : Nat) (v : Version) : WriteBody :=
  { more := false, index := index, count := count, records := [{ cell := 12, version := v, data := zeroData }] }

/-- A gap, a failed resolution, a fragment with nothing staged and one of another count, and a version that jumps. -/
theorem witness_OutOfStepDeparts :
    Hears m3 ⟨head 9 42, .leave⟩ ∧ (42 : Seq) ≠ m3.mship.table[9].lastSeq + 1 ∧ (42 : Seq) ≠ m3.mship.table[9].lastSeq
      ∧ Hears inDoubt ⟨head 5 21, .presence⟩ ∧ inDoubt.apply.doubt = .known 5 22 ∧ (21 : Seq) ≠ 22
      ∧ Hears m3 ⟨head 5 21, .write (fragment 1 2 1)⟩ ∧ m3.apply.staging = none
      ∧ Hears staged ⟨head 5 21, .write (fragment 2 3 1)⟩ ∧ (fragment 2 3 1).index ≠ 1
      ∧ Hears m3 ⟨head 5 21, .write (fragment 0 1 2)⟩ ∧ m3.locks[regionOf 12].holder = some 5
      ∧ m3.cells[(12 : CellIx)].status = .present ∧ (2 : Version) ≠ succVersion m3.cells[(12 : CellIx)].version
      ∧ PortLaw m3 ∧ isHolder m3.mship.state = true ∧ m3.mship.table[5].state ≠ .absent
      ∧ m3.mship.autoRejoin = some true ∧ (inState .leaving m3).mship.state = .leaving :=
  ⟨hears_of (by decide +kernel), by decide +kernel, by decide +kernel, hears_of (by decide +kernel), rfl, by decide,
    hears_of (by decide +kernel), rfl, hears_of (by decide +kernel), by decide, hears_of (by decide +kernel),
    by decide +kernel, by decide +kernel, by decide +kernel, m3_port, rfl, by decide +kernel, rfl, rfl⟩

theorem witness_DuplicateIsAckedOnly :
    ∃ f : Frame, Hears m3 f ∧ FromTableSender m3 f ∧ (∀ b, f.body ≠ .join b)
      ∧ f.head.seq = m3.mship.table[f.head.sender].lastSeq :=
  ⟨⟨head 5 20, .leave⟩, hears_of (by decide +kernel), from_table_sender_of (by decide +kernel), nofun, by decide +kernel⟩

/-- A stranger, this station's own number, one reported already, the full queue (31 notices beside one live ticket), and
every station state named. -/
theorem witness_FrameNotOfGroupPassesBy :
    Hears m3 ⟨head 8 0, .presence⟩ ∧ Hears m3 ⟨head 3 0, .leave⟩ ∧ m3.mship.table[8].state = .absent
      ∧ (3 : Station) = m3.straps.number ∧ m3.mship.state = .member ∧ flag m3.apply.foreign 8 = false
      ∧ m3.port.notices.length + reserved m3.port < 32
      ∧ 32 ≤ (noted (List.replicate 31 .lineFault) m3).port.notices.length
          + reserved (noted (List.replicate 31 .lineFault) m3).port
      ∧ flag ({ m3.apply with foreign := 0x0100 } : ApplyUnit).foreign 8 = true
      ∧ ∀ st, Hears (inState st m3) ⟨head 8 0, .presence⟩ :=
  ⟨hears_of (by decide +kernel), hears_of (by decide +kernel), by decide +kernel, rfl, rfl, by decide +kernel,
    by decide +kernel, by decide +kernel, by decide +kernel, fun _ =>
      ⟨none_in_hand rfl, (by decide +kernel : frameOkAt 3 ⟨head 8 0, .presence⟩ = true), .inl rfl⟩⟩

theorem witness_FragmentIsStaged :
    let w0 : WriteBody := { more := true, index := 0, count := 4
                            records := (List.range 8).map fun i => record (Fin.ofNat 256 i) }
    let s := withStaging { sender := 5, count := 4, expected := 2, records := [] } m3
    Applies m3 ⟨head 5 21, .write w0⟩ ∧ m3.apply.staging = none ∧ 1 < w0.count
      ∧ Applies s ⟨head 5 21, .write { w0 with index := 2 }⟩ ∧ 2 + 1 < w0.count :=
  ⟨applies_of (by decide +kernel), rfl, by decide, applies_of (by decide +kernel), by decide⟩

/-- A bundle of one fragment, the last of two, a bundle for a region that its sender does not hold; at the FILLING station a
bundle whose version jumps, for a cell not marked. -/
theorem witness_CommitPointWritesBundle :
    let filling : State := { filling3 with locks := locks.set 1 freeRegion |>.set 2 freeRegion |>.set 4 freeRegion }
    Applies m3 ⟨head 5 21, .write (fragment 0 1 1)⟩ ∧ Applies staged ⟨head 5 21, .write (fragment 1 2 1)⟩
      ∧ Applies m3 ⟨head 9 41, .write (fragment 0 1 0)⟩ ∧ m3.locks[regionOf 12].holder = some 5
      ∧ m3.cells[(12 : CellIx)].status = .present ∧ (1 : Version) = succVersion m3.cells[(12 : CellIx)].version
      ∧ m3.cells[(40 : CellIx)].status = .damaged ∧ m3.locks[regionOf 12].holder ≠ some 9
      ∧ StoreLaw m3 ∧ m3.mship.state = .member ∧ m3.mend.cells.Nodup
      ∧ (((List.range 8).map fun i => (Fin.ofNat 256 i : CellIx)) ++ [12]).Nodup
      ∧ Applies filling ⟨head 5 21, .write (fragment 0 1 7)⟩ ∧ filling.mship.state = .filling
      ∧ filling.locks[regionOf 12].holder = some 5 ∧ filling.cells[(12 : CellIx)].fresh = false
      ∧ (7 : Version) ≠ succVersion filling.cells[(12 : CellIx)].version ∧ StoreLaw filling ∧ filling.mend.cells.Nodup :=
  ⟨applies_of (by decide +kernel), applies_of (by decide +kernel), applies_of (by decide +kernel), by decide +kernel,
    by decide +kernel, by decide +kernel, by decide +kernel, by decide +kernel, m3_store, rfl, by decide +kernel, by decide,
    applies_of (by decide +kernel), rfl, by decide +kernel, by decide +kernel, by decide +kernel, store_of_empty rfl,
    by decide +kernel⟩

/-- m3 in the middle of a bundle of its own under ticket 1, its waiting CLAIM under ticket 0: the slot empty, a fragment
unheard in it and one heard; each frame named, and two foreign ones. -/
theorem witness_ForeignerInMidBundleBreaksIt :
    let st : Staging := { sender := 3, count := 2, expected := 1, records := [] }
    let tk : Ticket := sendingTicket .commit .none
    let s : State := { withStaging st m3 with
      bundle := { draft := [], outgoing := some { bundleOf 9 1 with ticket := 1 } }
      port := { m3.port with tickets := m3.port.tickets.set 1 (some tk), order := [0, 1] } }
    let sl : Slot := { slotOf (.write (ownFragment 1)) with heard := false }
    (∀ f ∈ ([⟨head 5 21, .presence⟩, ⟨head 9 41, .claim 15⟩, ⟨head 5 21, .mend 9 0⟩, ⟨head 5 21, .signal (some 9) [1]⟩,
        ⟨head 5 21, .yield 2⟩] : List Frame), Hears s f ∧ FromTableSender s f ∧ NextInSequence s f)
      ∧ s.apply.staging = some st ∧ st.sender = s.straps.number
      ∧ s.bundle.outgoing = some { bundleOf 9 1 with ticket := 1 }
      ∧ s.port.tickets[(1 : TicketNo)] = some tk ∧ tk.state ≠ .done ∧ s.tx.slot = none
      ∧ (withSlot sl s).tx.slot = some sl ∧ sl.heard = false ∧ (slotOf (.write (ownFragment 1))).heard = true
      ∧ (9 : Station) ≠ s.straps.number ∧ s.mship.table[9].state = .member ∧ s.locks[(15 : Region)].holder = none
      ∧ s.locks[(2 : Region)] = { holder := some 5, waiters := [s.straps.number] } ∧ SoleLive 0 waitingClaim s.port
      ∧ Hears s ⟨head 8 0, .leave⟩ ∧ s.mship.table[8].state = .absent ∧ Hears s ⟨head 3 0, .join true⟩
      ∧ isHolder s.mship.state = true := by
  refine ⟨?_, rfl, rfl, rfl, by decide +kernel, by decide, rfl, rfl, rfl, rfl, by decide +kernel, by decide +kernel,
    by decide +kernel, by decide +kernel, sole_live_of (by decide +kernel), hears_of (by decide +kernel), by decide +kernel,
    hears_of (by decide +kernel), rfl⟩
  intro f hf
  simp only [List.mem_cons, List.not_mem_nil, or_false] at hf
  unfold NextInSequence
  rcases hf with rfl | rfl | rfl | rfl | rfl <;>
    exact ⟨hears_of (by decide +kernel), from_table_sender_of (by decide +kernel), by decide +kernel⟩

/-! ### Hypotheses met: joining, mending, signals -/

theorem witness_SnapStateBeginsFill :
    let s := inState .awaitState m3
    s.mship.state = .awaitState ∧ Hears s ⟨head 5 21, .snapState 3 fillImages⟩ ∧ Hears s ⟨head 9 0, .leave⟩
      ∧ (9 : Station) ≠ s.straps.number :=
  ⟨rfl, hears_of (by decide +kernel), hears_of (by decide +kernel), by decide +kernel⟩

/-- Groups 30 and 31, at the joiner itself (a marked and an unmarked cell in the last) and at another table holder. -/
theorem witness_SnapCellsFillTheJoiner :
    (∀ g : Group, g = 30 ∨ g = 31 → Applies filling3 ⟨head 5 21, .snapCells 3 g (Vector.replicate 8 .missing)⟩
        ∧ Applies m3 ⟨head 5 21, .snapCells 7 g (Vector.replicate 8 .missing)⟩)
      ∧ StoreLaw filling3 ∧ GroupLaw filling3 ∧ filling3.mship.table[3].state = .joining
      ∧ filling3.mship.table[3].sponsor = some 5 ∧ StoreLaw m3 ∧ GroupLaw m3 ∧ m3.mship.table[7].state = .joining
      ∧ m3.mship.table[7].sponsor = some 5 ∧ filling3.cells[groupCell 31 0].fresh = true
      ∧ filling3.cells[groupCell 31 7].fresh = false
      ∧ SoleLive 0 waitingJoin filling3.port
      ∧ (∀ k : TicketNo, filling3.port.tickets[k].all (fun u => u.kind != .join) = true ∨ k = 0)
      ∧ (∀ k : TicketNo, m3.port.tickets[k].all (fun u => u.kind != .join) = true) :=
  ⟨fun g h => by rcases h with rfl | rfl <;> exact ⟨applies_of (by decide +kernel), applies_of (by decide +kernel)⟩,
    store_of_empty rfl, filling3_group, by decide +kernel, by decide +kernel, m3_store, m3_group, by decide +kernel,
    by decide +kernel, by decide +kernel, by decide +kernel, sole_live_of (by decide +kernel), by decide +kernel,
    by decide +kernel⟩

/-- Seven and eight replies queued; this target and another; room for the notice and none. -/
theorem witness_MendAndSignalReachTheirTarget :
    Applies m3 ⟨head 9 41, .mend 3 255⟩ ∧ Applies m3 ⟨head 9 41, .mend 5 0⟩
      ∧ Applies m3 ⟨head 9 41, .signal none [1]⟩ ∧ Applies m3 ⟨head 9 41, .signal (some 5) [1]⟩
      ∧ m3.mship.table[9].state = .member ∧ m3.mship.state = .member
      ∧ (List.replicate 7 ({ requester := 9, cell := 0 } : ReplyEntry)).length < 8
      ∧ 8 ≤ (List.replicate 8 ({ requester := 9, cell := 0 } : ReplyEntry)).length
      ∧ m3.port.notices.length + reserved m3.port < 32
      ∧ 32 ≤ (noted (List.replicate 31 .lineFault) m3).port.notices.length
          + reserved (noted (List.replicate 31 .lineFault) m3).port :=
  ⟨applies_of (by decide +kernel), applies_of (by decide +kernel), applies_of (by decide +kernel),
    applies_of (by decide +kernel), by decide +kernel⟩

/-- m3 mending cell 40 from station 5, its window running. -/
def mending : State :=
  { m3 with mend := { cells := [40], current := some { responder := 5, tried := 0x0020, window := some 8192 } } }

/-- The cell alone in the list, and one more behind it in a region that another MEMBER holds and in a free one; the next to
ask, and none left. -/
theorem witness_MendReplyRepairsOrMovesOn :
    StoreLaw mending ∧ mending.mend = { cells := [40], current := some { responder := 5, tried := 0x0020, window := some 8192 } }
      ∧ (40 : CellIx) ∉ ([] : List CellIx) ∧ mending.mship.state = .member
      ∧ Applies mending ⟨head 5 21, .mendReply 3 40 (.data 7 zeroData)⟩
      ∧ Applies mending ⟨head 5 21, .mendReply 3 40 .noCopy⟩ ∧ Applies mending ⟨head 9 41, .mendReply 3 40 .noCopy⟩
      ∧ Applies mending ⟨head 9 41, .mendReply 3 41 .noCopy⟩ ∧ mending.mship.table[9].state = .member
      ∧ mending.cells[(40 : CellIx)].status = .damaged ∧ NextAsked mending 0x0020 9 ∧ NoneLeft mending 0x0220
      ∧ (40 : CellIx) ∉ ([0, 255] : List CellIx) ∧ mending.locks[regionOf 0].holder = some 5
      ∧ (5 : Station) ≠ mending.straps.number ∧ mending.mship.table[5].state = .member
      ∧ mending.locks[regionOf 255].holder = none ∧ NextAsked mending 0 5
      ∧ mending.port.notices.length + reserved mending.port < 32
      ∧ 32 ≤ (noted (List.replicate 31 .lineFault) m3).port.notices.length
          + reserved (noted (List.replicate 31 .lineFault) m3).port
      ∧ (inState .leaving mending).mship.state = .leaving ∧ NoneInHand mending := by
  refine ⟨store_of_empty rfl, rfl, by simp, rfl, applies_of (by decide +kernel), applies_of (by decide +kernel),
    applies_of (by decide +kernel), applies_of (by decide +kernel), by decide +kernel, by decide +kernel, ?_, ?_, by decide,
    by decide +kernel, by decide +kernel, by decide +kernel, by decide +kernel, ?_, by decide +kernel, by decide +kernel, rfl,
    none_in_hand rfl⟩
  · unfold NextAsked
    decide +kernel
  · unfold NoneLeft
    decide +kernel
  · unfold NextAsked
    decide +kernel

/-! ### Hypotheses met: damaged frames, collisions, windows, timers -/

/-- A carrier of no byte: no start of a frame. -/
def noise : Heard := cutShort []

theorem classify_noise (n : Station) (mark : Bool) : classify n mark noise = .damagedUnknown := by
  revert n mark
  decide +kernel

theorem noise_not_good (n : Station) (mark : Bool) : ∀ f, classify n mark noise ≠ .good f := by
  intro f h
  rw [classify_noise] at h
  exact absurd h (by simp)

/-- A CLAIM of station 5 whose payload check fails, heard whole: damaged-known. -/
def spoiled : Heard := onLine ((frameBytes ⟨head 5 22, .claim 1⟩).set 8 0)

theorem witness_DamagedFrameSetsDoubt :
    NoneInHand m3 ∧ CarrierOver true m3 ∧ (∀ f, classify m3.straps.number true noise ≠ .good f)
      ∧ classify m3.straps.number true noise = .damagedUnknown
      ∧ classify m3.straps.number true spoiled = .damagedKnown 5 false 22
      ∧ inDoubt.apply.doubt = .known 5 22 ∧ m3.mship.table[5].lastSeq ≠ 22
      ∧ isHolder (inState .outside m3).mship.state = false :=
  ⟨none_in_hand rfl, .inl ⟨rfl, rfl⟩, noise_not_good _ _, by decide +kernel, by decide +kernel, rfl, by decide +kernel, rfl⟩

/-- The count at 6 and at 7, with a PRESENCE in the slot. -/
theorem witness_CollisionIsCounted :
    let s : State := { withSlot (slotOf .presence) m3 with
      bus := { m3.bus with state := .sending }, access := { m3.access with collisions := 7 } }
    NoneInHand s ∧ s.bus.state = .sending ∧ (∀ f, classify s.straps.number true noise ≠ .good f)
      ∧ (∀ sl, s.tx.slot = some sl → s.bundle.outgoing ≠ none ∨ sl.heard = true ∨ ∀ w, sl.frame.body ≠ .write w)
      ∧ s.access.collisions = 7 ∧ m3.access.collisions ≠ 7 ∧ s.port.notices.length + reserved s.port < 32 :=
  ⟨none_in_hand rfl, rfl, noise_not_good _ _, fun sl h => by cases h; exact .inr (.inl rfl), rfl, by decide +kernel,
    by decide +kernel⟩

/-- A collision at this sender, and a frame heard as noise. -/
theorem witness_TurnPositionRotates :
    let s : State := { withSlot (slotOf .presence) m3 with bus := { m3.bus with state := .sending } }
    Running s ∧ s.bus.state = .sending ∧ (∀ f, classify s.straps.number true noise ≠ .good f)
      ∧ (after (.collision true noise) s).isSome = true ∧ CarrierOver true m3
      ∧ (∀ f, classify m3.straps.number true noise ≠ .good f) ∧ (after (.damagedFrame noise) m3).isSome = true :=
  ⟨rfl, rfl, noise_not_good _ _, by decide +kernel, .inl ⟨rfl, rfl⟩, noise_not_good _ _, by decide +kernel⟩

theorem witness_ReferenceSenderFollowsCarrierEnds :
    Hears m3 ⟨head 8 0, .presence⟩ ∧ Running m3 ∧ CarrierOver true m3
      ∧ (withSlot (slotOf .presence) { m3 with bus := { m3.bus with state := .sending } }).bus.state = .sending
      ∧ (∀ f, Instr.poll 0 ≠ frameCommand f)
      ∧ (after (.poll 0) m3).isSome = true ∧ (after .status (hand 0x01 [] m3)).isSome = true := by
  refine ⟨hears_of (by decide +kernel), rfl, .inl ⟨rfl, rfl⟩, rfl, ?_, by decide +kernel, by decide +kernel⟩
  intro f
  obtain ⟨h, b⟩ := f
  cases b <;> simp [frameCommand]

/-- Repeats below the limit and at it; every station of the set driven, some, and none; after a collision the count at 7 and
at 8, the frame heard and not. -/
theorem witness_AckWindowSettlesFrame :
    let s := window .ownGood (withSlot { slotOf .presence with repeats := 2 } m3)
    let c := window .collided (withSlot (slotOf .presence) { m3 with access := { m3.access with collisions := 8 } })
    NoneInHand s ∧ s.bus.state = .ackWindow ∧ s.mship.state = .member ∧ (window .heard m3).bus.report = .heard
      ∧ s.bus.report = .ownGood ∧ s.mship.repeatLimit = some 2 ∧ (slotOf .presence).repeats < 2
      ∧ (∃ x, flag (slotOf .presence).required x = true ∧ flag 0x0220 x = false)
      ∧ (¬ ∃ x, flag (slotOf .presence).required x = true ∧ flag 0x02A0 x = false)
      ∧ (∀ x, flag (slotOf .presence).required x = true → flag 0x0000 x = false)
      ∧ s.mship.listening = true ∧ PortLaw s ∧ CapacityLaw s
      ∧ NoneInHand c ∧ c.bus.report = .collided ∧ c.access.collisions = 8 ∧ (slotOf .presence).heard = true
      ∧ m3.access.collisions < 8 ∧ ({ slotOf .presence with heard := false } : Slot).heard = false :=
  ⟨none_in_hand rfl, rfl, rfl, rfl, rfl, rfl, by decide, by decide +kernel, by decide +kernel, by decide +kernel, rfl, m3_port,
    m3_capacity, none_in_hand rfl, rfl, rfl, rfl, by decide +kernel, rfl⟩

/-- A CLAIM, a SIGNAL, a MEND and a fragment settled; a LEAVE with every position driven, with one missing and repeats left
or none left, and with none driven. -/
theorem witness_SettlementMovesTicket :
    let s := window .ownGood (withSlot (slotOf (.claim 2)) (claimIn .sending m3))
    let tk := sendingTicket .leave .none
    let l := window .ownGood (withSlot { slotOf .leave with repeats := 2 } (inState .leaving
      { m3 with port := { m3.port with tickets := m3.port.tickets.set 0 (some tk) } }))
    NoneInHand s ∧ s.bus.state = .ackWindow ∧ s.mship.state = .member ∧ s.bus.report = .ownGood
      ∧ (∀ x, flag (slotOf (.claim 2)).required x = true → flag 0x02A0 x = true) ∧ (slotOf (.claim 2)).ticket = some 0
      ∧ s.port.tickets[(0 : TicketNo)] = some { waitingClaim with state := .sending }
      ∧ m3.port.tickets[(0 : TicketNo)] = some waitingClaim
      ∧ flag (slotOf (.signal (some 8) [1])).required 8 = false ∧ (slotOf (.signal (some 8) [1])).targetIn = false
      ∧ mending.tx.mend = none ∧ (sending 9 0 s).bundle.outgoing = some (bundleOf 9 0)
      ∧ NoneInHand l ∧ l.bus.state = .ackWindow ∧ l.mship.state = .leaving ∧ l.bus.report = .ownGood
      ∧ l.tx.slot = some { slotOf .leave with repeats := 2 } ∧ l.port.tickets[(0 : TicketNo)] = some tk ∧ tk.state ≠ .done
      ∧ l.mship.repeatLimit = some 2 ∧ l.mship.listening = true ∧ PortLaw l ∧ (slotOf .leave).repeats < 2
      ∧ (∃ x, flag (slotOf .leave).required x = true ∧ flag 0x0020 x = true)
      ∧ (∃ x, flag (slotOf .leave).required x = true ∧ flag 0x0020 x = false)
      ∧ ¬ ∃ x, flag (slotOf .leave).required x = true ∧ flag 0x0000 x = true :=
  ⟨none_in_hand rfl, rfl, rfl, rfl, by decide +kernel, rfl, by decide +kernel, by decide +kernel, by decide +kernel, rfl, rfl,
    rfl, none_in_hand rfl, rfl, rfl, rfl, rfl, by decide +kernel, by decide, rfl, rfl,
    (by unfold PortLaw; decide +kernel), by decide, by decide +kernel, by decide +kernel, by decide +kernel⟩

theorem witness_OwnJoinSettles :
    let tk : Ticket := { kind := .join, state := .sending, arg := .none, link := none }
    let s0 : State := { m3 with port := { m3.port with tickets := (Vector.replicate 16 none).set 0 (some tk) } }
    let s := window .ownGood (withSlot { slotOf (.join true) with repeats := 2 } (inState .joinSent s0))
    NoneInHand s ∧ s.bus.state = .ackWindow ∧ s.mship.state = .joinSent ∧ s.bus.report = .ownGood
      ∧ s.tx.slot = some { slotOf (.join true) with repeats := 2 } ∧ (slotOf (.join true)).ticket = some 0
      ∧ SoleLive 0 tk s.port ∧ s.mship.repeatLimit = some 2
      ∧ (∀ j : TicketNo, j ≠ 0 → s.port.tickets[j] = none)
      ∧ (∃ x, x ≠ s.straps.number ∧ flag 0x0001 x = true) ∧ ¬ ∃ x, x ≠ s.straps.number ∧ flag 0x0008 x = true :=
  ⟨none_in_hand rfl, rfl, rfl, rfl, rfl, rfl, sole_live_of (by decide +kernel), rfl, by decide +kernel, by decide +kernel,
    by decide +kernel⟩

theorem witness_TimersExpire :
    let s : State := { m3 with
      mship := { m3.mship with listen := some 1 }, access := { m3.access with holdOff := some 1 } }
    NoneInHand s ∧ s.mship.listen ≠ none ∧ s.access.holdOff ≠ none ∧ s.mship.presence ≠ none
      ∧ s.mship.silence[(9 : Station)] ≠ none ∧ (∀ d ∈ s.tx.drops, d.target ≠ 9)
      ∧ m3.mship.listen = none ∧ m3.access.holdOff = none ∧ m3.mship.silence[(8 : Station)] = none :=
  ⟨none_in_hand rfl, by decide +kernel, by decide +kernel, by decide +kernel, by decide +kernel, by decide +kernel, rfl, rfl,
    by decide +kernel⟩

theorem witness_StorageUpsetFailsVerification :
    NoneInHand m3 ∧ StoreLaw m3 ∧ m3.cells[(255 : CellIx)].status = .present := ⟨none_in_hand rfl, m3_store, by decide +kernel⟩

end Sys2Proof.Tests
end

section
/-! The requests that shrink the draft: UNSTAGE_CELL and DISCARD_DRAFT (R59). -/

namespace Sys2Proof.Machine

open Sys2Proof.Safety

/-- The check that UNSTAGE_CELL makes on the draft, read as membership (R59). -/
theorem draft_any_cell_iff (c : CellIx) (draft : List DraftEntry) :
    draft.any (·.cell == c) = true ↔ ∃ e ∈ draft, e.cell = c := by
  simp only [List.any_eq_true, beq_iff_eq]

/-- A cell that is not in the draft is staged at its tail (R58). -/
theorem stageInto_of_not_staged {c : CellIx} {draft : List DraftEntry} (d : CellData)
    (h : ¬ ∃ e ∈ draft, e.cell = c) : stageInto c d draft = draft ++ [{ cell := c, data := d }] := by
  rw [← draft_any_cell_iff] at h
  exact if_neg h

/-- The entries left by an UNSTAGE_CELL hold its cell no more. -/
theorem not_staged_in_filter_ne (c : CellIx) (draft : List DraftEntry) :
    ¬ ∃ e ∈ draft.filter fun e => decide (e.cell ≠ c), e.cell = c := by
  rintro ⟨e, he, hc⟩
  have kept := (List.mem_filter.1 he).2
  exact of_decide_eq_true kept hc

/-- An UNSTAGE_CELL of a staged cell leaves the other entries in their order and answers their count (R59). -/
theorem doUnstageCell_of_staged {c : Byte} {s : State} (h : ∃ e ∈ s.bundle.draft, e.cell = ⟨c.toNat, c.isLt⟩) :
    doUnstageCell [c] s =
      let rest := s.bundle.draft.filter fun e => decide (e.cell ≠ ⟨c.toNat, c.isLt⟩)
      answered .ok [BitVec.ofNat 8 rest.length] { s with bundle := { s.bundle with draft := rest } } := by
  have filters_agree : (fun e : DraftEntry => e.cell != ⟨c.toNat, c.isLt⟩)
      = fun e => decide (e.cell ≠ ⟨c.toNat, c.isLt⟩) := by
    funext e
    rw [Bool.eq_iff_iff, bne_iff_ne, decide_eq_true_iff]
  rw [← draft_any_cell_iff] at h
  rw [← filters_agree]
  exact if_pos h

/-- An UNSTAGE_CELL of a cell that is not staged answers NONE and changes nothing (R59). -/
theorem doUnstageCell_of_not_staged {c : Byte} {s : State}
    (h : ¬ ∃ e ∈ s.bundle.draft, e.cell = ⟨c.toNat, c.isLt⟩) : doUnstageCell [c] s = answered .none [] s := by
  rw [← draft_any_cell_iff] at h
  exact if_neg h

end Sys2Proof.Machine

namespace Sys2Proof

open Sys2Proof.Machine Sys2Proof.Safety

/-- Settles O20: by whether the cell is staged; an empty draft stages none. -/
theorem unstageAndDiscard : Obligations.UnstageAndDiscard := by
  intro s
  refine ⟨fun c hand => ⟨fun staged => ?_, fun unstaged => ?_, fun d => ?_, fun _ empty => ?_⟩, fun hand => ?_⟩
  · rw [exec_unstageCell hand, doUnstageCell_of_staged staged]
  · rw [exec_unstageCell hand, doUnstageCell_of_not_staged unstaged]
  · exact stageInto_of_not_staged d (not_staged_in_filter_ne _ _)
  · rw [exec_unstageCell hand, doUnstageCell_of_not_staged (by simp [empty])]
  · exact exec_discardDraft hand

end Sys2Proof
end

section
/-! Turn positions and turn gaps: where a station stands after each reference sender (R157). -/

namespace Sys2Proof.Machine

/-- With no reference sender the stations stand by their numbers (R157). -/
@[simp] theorem turnPosition_none (n : Station) : turnPosition n none = n.val := rfl

/-- There are sixteen places, 0 to 15. -/
theorem turnPosition_lt (n : Station) (l : Option Station) : turnPosition n l < 16 := by
  cases l with
  | none => exact n.isLt
  | some l => exact Nat.mod_lt _ (by decide)

/-- Counting on from the reference sender by a station's place leads back to the station. -/
theorem turnPosition_some_rotate (n l : Station) : (turnPosition n (some l) + l.val + 1) % 16 = n.val := by
  simp only [turnPosition]
  omega

/-- Stations that agree on the reference sender and stand at one place are one station: the place determines the number. -/
theorem turnPosition_injective (l : Option Station) : Function.Injective fun n => turnPosition n l := by
  intro n m same
  apply Fin.ext
  cases l with
  | none => exact same
  | some l =>
    have same : turnPosition n (some l) = turnPosition m (some l) := same
    rw [← turnPosition_some_rotate n l, same, turnPosition_some_rotate m l]

/-- The reference sender itself stands last. -/
theorem turnPosition_reference (l : Station) : turnPosition l (some l) = 15 := by
  simp only [turnPosition]
  omega

/-- The station numbered next above the reference sender, 0 after 15, stands first. -/
theorem turnPosition_next (l : Station) : turnPosition (l + 1) (some l) = 0 := by
  have number : (l + 1).val = (l.val + 1) % 16 := Fin.val_add l 1
  simp only [turnPosition, number]
  omega

/-- One turn gap is the longer exactly where its place is the later. -/
theorem turnGap_le_iff (n m : Station) (k l : Option Station) :
    turnGap n k ≤ turnGap m l ↔ turnPosition n k ≤ turnPosition m l := by
  unfold turnGap
  omega

/-- Turn gaps are equal exactly where the places are. -/
theorem turnGap_inj (n m : Station) (k l : Option Station) :
    turnGap n k = turnGap m l ↔ turnPosition n k = turnPosition m l := by
  simp only [le_antisymm_iff, turnGap_le_iff]

/-- A station whose reference sender is unset waits at a turn by its number. -/
theorem gapSlots_turn_of_unset {s : State} (unset : s.access.reference = none) :
    gapSlots .turn s = 6 + 2 * s.straps.number.val := by
  rw [gapSlots, unset]
  rfl

end Sys2Proof.Machine
end

section
/-! The bus side of a station, which no request of its host touches: whatever request waits for its check point when an event
of the bus comes, the event finds the straps, the Bus Interface and the Access Timer as they stand (R181). -/

namespace Sys2Proof.Machine

open Sys2Proof.Safety

/-- The blocks that no request of the host touches. -/
def busSide (s : State) : Straps × BusInterface × AccessTimer := (s.straps, s.bus, s.access)

/-! ### The updates that leave the bus side as it is -/

@[simp] theorem busSide_withPort (p : HostPort) (s : State) : busSide (s.withPort p) = busSide s := rfl
@[simp] theorem busSide_withMship (m : Membership) (s : State) : busSide (s.withMship m) = busSide s := rfl
@[simp] theorem busSide_withBundle (b : BundleUnit) (s : State) : busSide (s.withBundle b) = busSide s := rfl
@[simp] theorem busSide_withTx (t : Transmit) (s : State) : busSide (s.withTx t) = busSide s := rfl
@[simp] theorem busSide_withMend (m : MendUnit) (s : State) : busSide (s.withMend m) = busSide s := rfl
@[simp] theorem busSide_respond (c : ResultCode) (b : List Byte) (s : State) : busSide (respond c b s) = busSide s := rfl
@[simp] theorem busSide_refuse (c : ResultCode) (s : State) : busSide (refuse c s) = busSide s := rfl
@[simp] theorem busSide_answerDraft (d : List DraftEntry) (s : State) : busSide (answerDraft d s) = busSide s := rfl
@[simp] theorem busSide_stopSilence (s : State) : busSide (stopSilence s) = busSide s := rfl
@[simp] theorem busSide_accept (k : TicketNo) (kind : RequestKind) (arg : TicketArg) (link : Option TicketNo)
    (f : SendFrame) (s : State) : busSide (accept k kind arg link f s) = busSide s := rfl

@[simp] theorem busSide_complete (k : TicketNo) (o : Completion) (s : State) : busSide (complete k o s) = busSide s := by
  obtain ⟨p, hp⟩ := complete_port k o s
  rw [hp, busSide_withPort]

@[simp] theorem busSide_completeAll (ks : List TicketNo) (o : Completion) (s : State) :
    busSide (completeAll ks o s) = busSide s := by
  obtain ⟨p, hp⟩ := completeAll_port ks o s
  rw [hp, busSide_withPort]

@[simp] theorem busSide_completeCommit (o : Completion) (s : State) : busSide (completeCommit o s) = busSide s := by
  unfold completeCommit
  split <;> simp

@[simp] theorem busSide_beginMend (s : State) : busSide (beginMend s) = busSide s := by
  obtain ⟨p, m, t, h⟩ := beginMend_changes s
  simp [h]

theorem busSide_damageCell (c : CellIx) (s : State) : busSide (damageCell c s) = busSide s := by
  unfold damageCell listForMend
  split <;> rfl

theorem busSide_verifyForHost (c : CellIx) (s : State) : busSide (verifyForHost c s) = busSide s := by
  unfold verifyForHost
  cases s.cells[c].status <;> simp [apply_ite busSide, busSide_damageCell]

theorem busSide_foldl_verifyForHost (cs : List CellIx) (s : State) :
    busSide (cs.foldl (fun s c => verifyForHost c s) s) = busSide s := by
  induction cs generalizing s with
  | nil => rfl
  | cons c cs ih => rw [List.foldl_cons, ih, busSide_verifyForHost]

/-- An unheard WRITE fragment's abandonment changes the Transmit Selector alone. -/
theorem abandonUnheardFragment_tx (s : State) : ∃ t, abandonUnheardFragment s = s.withTx t := by
  unfold abandonUnheardFragment
  split
  · split
    · exact ⟨_, rfl⟩
    · exact ⟨s.tx, rfl⟩
  · exact ⟨s.tx, rfl⟩

@[simp] theorem busSide_leaveBundle (s : State) : busSide (leaveBundle s) = busSide s := by
  unfold leaveBundle
  cases s.bundle.outgoing with
  | none => rfl
  | some b =>
    obtain ⟨t, ht⟩ := abandonUnheardFragment_tx (completeCommit .lost s)
    dsimp only
    rw [ht]
    split
    · rfl
    · split <;> simp

@[simp] theorem busSide_acceptLeave (k : TicketNo) (s : State) : busSide (acceptLeave k s) = busSide s := by
  simp [acceptLeave]

/-- A deferred request leaves the bus side as it is when its acceptance does: without a ticket it is refused. -/
theorem busSide_withTicket {f : TicketNo → State → State} (s : State) (kept : ∀ k, busSide (f k s) = busSide s) :
    busSide (withTicket f s) = busSide s := by
  unfold withTicket
  split
  · exact kept _
  · rfl

/-! ### The requests, code by code -/

theorem busSide_doConfigure (args : List Byte) (s : State) : busSide (doConfigure args s) = busSide s := by
  unfold doConfigure
  cases configureArg args <;> simp [apply_ite busSide]

theorem busSide_doReadCells (args : List Byte) (s : State) : busSide (doReadCells args s) = busSide s := by
  unfold doReadCells
  cases cellsArg args <;> simp [busSide_foldl_verifyForHost]

theorem busSide_doReadRegion (args : List Byte) (s : State) : busSide (doReadRegion args s) = busSide s := by
  unfold doReadRegion
  cases regionArg args <;> rfl

theorem busSide_doTakeNotice (args : List Byte) (s : State) : busSide (doTakeNotice args s) = busSide s := by
  unfold doTakeNotice
  cases s.port.notices <;> rfl

theorem busSide_doSetWatch (args : List Byte) (s : State) : busSide (doSetWatch args s) = busSide s := by
  unfold doSetWatch
  cases watchArg args <;> rfl

theorem busSide_doStageCell (args : List Byte) (s : State) : busSide (doStageCell args s) = busSide s := by
  unfold doStageCell
  cases stageArg args <;> simp [apply_ite busSide]

theorem busSide_doUnstageCell (args : List Byte) (s : State) : busSide (doUnstageCell args s) = busSide s := by
  unfold doUnstageCell
  cases cellArg args <;> simp [apply_ite busSide]

theorem busSide_doJoin (args : List Byte) (s : State) : busSide (doJoin args s) = busSide s := by
  unfold doJoin
  split
  · rfl
  · exact busSide_withTicket s fun _ => rfl

theorem busSide_doLeave (args : List Byte) (s : State) : busSide (doLeave args s) = busSide s := by
  unfold doLeave
  split
  · rfl
  · exact busSide_withTicket s fun k => busSide_acceptLeave k s

theorem busSide_doClaim (args : List Byte) (s : State) : busSide (doClaim args s) = busSide s := by
  unfold doClaim
  cases regionArg args with
  | none => rfl
  | some r =>
    dsimp only
    split_ifs
    · rfl
    · rfl
    · exact busSide_withTicket s fun _ => rfl

theorem busSide_doRelease (args : List Byte) (s : State) : busSide (doRelease args s) = busSide s := by
  unfold doRelease
  cases regionArg args with
  | none => rfl
  | some r =>
    dsimp only
    split_ifs
    · rfl
    · rfl
    · rfl
    · rfl
    · exact busSide_withTicket s fun _ => rfl

theorem busSide_doWithdraw (args : List Byte) (s : State) : busSide (doWithdraw args s) = busSide s := by
  unfold doWithdraw
  cases regionArg args with
  | none => rfl
  | some r =>
    dsimp only
    split
    · rfl
    · split
      · rfl
      · split_ifs
        · rfl
        · simp [withdrawNow]
        · exact busSide_withTicket s fun _ => rfl

theorem busSide_doCommit (args : List Byte) (s : State) : busSide (doCommit args s) = busSide s := by
  unfold doCommit
  split_ifs
  · rfl
  · rfl
  · rfl
  · exact busSide_withTicket s fun _ => rfl

theorem busSide_doSignal (args : List Byte) (s : State) : busSide (doSignal args s) = busSide s := by
  unfold doSignal
  cases signalArg (self s) args with
  | none => rfl
  | some a =>
    dsimp only
    split_ifs
    · rfl
    · rfl
    · exact busSide_withTicket s fun _ => rfl

/-- A choice between two effects that leave the bus side as it is leaves it so. -/
theorem busSide_choice {p : Prop} [Decidable p] {f g : State → State} {s : State} (then_kept : busSide (f s) = busSide s)
    (else_kept : busSide (g s) = busSide s) : busSide ((if p then f else g) s) = busSide s := by
  split <;> assumption

/-- No request touches the bus side, whatever its code. -/
theorem busSide_requestPoint (rq : Request) (s : State) : busSide (requestPoint rq s) = busSide s :=
  have status : busSide (doStatus rq.args s) = busSide s := rfl
  have readMembers : busSide (doReadMembers rq.args s) = busSide s := rfl
  have discardDraft : busSide (doDiscardDraft rq.args s) = busSide s := rfl
  busSide_choice status <| busSide_choice (busSide_doConfigure _ _) <| busSide_choice (busSide_doReadCells _ _) <|
  busSide_choice (busSide_doReadRegion _ _) <| busSide_choice readMembers <| busSide_choice (busSide_doTakeNotice _ _) <|
  busSide_choice (busSide_doSetWatch _ _) <| busSide_choice (busSide_doStageCell _ _) <|
  busSide_choice (busSide_doUnstageCell _ _) <| busSide_choice discardDraft <| busSide_choice (busSide_doJoin _ _) <|
  busSide_choice (busSide_doLeave _ _) <| busSide_choice (busSide_doClaim _ _) <| busSide_choice (busSide_doRelease _ _) <|
  busSide_choice (busSide_doWithdraw _ _) <| busSide_choice (busSide_doCommit _ _) <|
  busSide_choice (busSide_doSignal _ _) <| busSide_refuse .badRequest s

/-- The check point that comes before an event leaves the bus side as it is (R181). -/
theorem busSide_carryOut (s : State) : busSide (carryOut s) = busSide s := by
  unfold carryOut
  split
  · exact busSide_requestPoint _ s
  · rfl
  · rfl

@[simp] theorem carryOut_straps (s : State) : (carryOut s).straps = s.straps := congrArg Prod.fst (busSide_carryOut s)

@[simp] theorem carryOut_bus (s : State) : (carryOut s).bus = s.bus := congrArg (·.2.1) (busSide_carryOut s)

@[simp] theorem carryOut_access (s : State) : (carryOut s).access = s.access := congrArg (·.2.2) (busSide_carryOut s)

/-- An event at a station out of reset acts on the state that the check point of a request in hand, if one is, leaves. -/
theorem atEvent_running {s : State} (f : State → State) (out : Running s) : atEvent f s = .next (f (carryOut s)) := by
  simp only [Running] at out
  simp [atEvent, running, out]

end Sys2Proof.Machine
end

section
/-! What a carrier end leaves of the turn where its frame is damaged: at a station that took no part, and at the sender of a
collision, the reference sender is unset (R149, R156, R157, R160). -/

namespace Sys2Proof.Machine

open Sys2Proof.Safety

/-- What was heard changes the Bus Interface alone. -/
theorem recordHeard_bus (mark : Bool) (h : Heard) (s : State) : ∃ b, recordHeard mark h s = s.withBus b := by
  unfold recordHeard
  split <;> exact ⟨_, rfl⟩

/-- A damaged frame unsets the reference sender, is not acked, and beside that changes the Apply Unit alone. -/
theorem handFrame_damaged {cls : FrameClass} (s : State) (damaged : ∀ f, cls ≠ .good f) :
    ∃ a, handFrame cls s = ((setReference none s).withApply a, false) := by
  cases cls with
  | good f => exact absurd rfl (damaged f)
  | damagedKnown x again q =>
    simp only [handFrame, handleDamagedKnown]
    split
    · exact ⟨_, rfl⟩
    · exact ⟨s.apply, rfl⟩
  | damagedUnknown =>
    simp only [handFrame, handleDamagedUnknown]
    split
    · exact ⟨_, rfl⟩
    · exact ⟨s.apply, rfl⟩

/-- The carrier end of a damaged frame at a station that did not drive it keeps the station's number and unsets the
reference sender. -/
theorem heardEnd_damaged {cls : FrameClass} (mark : Bool) (h : Heard) (s : State) (damaged : ∀ f, cls ≠ .good f) :
    (heardEnd mark h cls s).straps = s.straps ∧ (heardEnd mark h cls s).access.reference = none := by
  obtain ⟨a, ha⟩ := handFrame_damaged (recordHeard mark h s) damaged
  obtain ⟨b, hb⟩ := recordHeard_bus mark h s
  rw [heardEnd, ha, hb]
  exact ⟨rfl, rfl⟩

/-- What was heard byte by byte ends its carrier in the class found with the start mark of that carrier. -/
theorem heardBytesEnd_over {mark : Bool} {s : State} (h : Heard) (ended : CarrierOver mark s) :
    heardBytesEnd h s = heardEnd mark h (classify s.straps.number mark h) s := by
  unfold heardBytesEnd
  obtain ⟨idle, rfl⟩ | ⟨receiving, rfl⟩ := ended
  · rw [idle]
    rfl
  · rw [receiving]
    rfl

/-- A fragment given up changes the Transmit Selector alone. -/
theorem dropOrphanFragment_tx (s : State) : ∃ t, dropOrphanFragment s = s.withTx t := by
  unfold dropOrphanFragment
  split
  · exact abandonUnheardFragment_tx s
  · exact ⟨s.tx, rfl⟩

/-- A collision's report keeps the straps and unsets the reference sender, LINE_FAULT posted or not. -/
theorem reportCollision_unsets (s : State) :
    (reportCollision s).straps = s.straps ∧ (reportCollision s).access.reference = none := by
  unfold reportCollision
  dsimp only
  split
  · obtain ⟨p, hp, -⟩ := postNotice_changes .lineFault
      (s.withAccess { s.access with
        reference := none
        collisions := min Config.collisionLimit (s.access.collisions + 1)
        holdOff := some Config.holdOffSlots })
    rw [State.withAccess_access]
    exact hp ▸ ⟨rfl, rfl⟩
  · exact ⟨rfl, rfl⟩

/-- A collision whose carrier is heard damaged keeps its sender's number and unsets the reference sender. -/
theorem collide_damaged {mark : Bool} {h : Heard} {s : State} (sending : s.bus.state = .sending)
    (damaged : ∀ f, classify s.straps.number mark h ≠ .good f) :
    (collide mark h s).straps = s.straps ∧ (collide mark h s).access.reference = none := by
  obtain ⟨a, ha⟩ := handFrame_damaged (recordHeard mark h s) damaged
  obtain ⟨b, hb⟩ := recordHeard_bus mark h s
  obtain ⟨t, ht⟩ := dropOrphanFragment_tx ((setReference none (s.withBus b)).withApply a)
  obtain ⟨straps, unset⟩ := reportCollision_unsets (((setReference none (s.withBus b)).withApply a).withTx t)
  rw [collide, if_pos sending, self, ha, hb]
  dsimp only
  rw [ht]
  exact ⟨straps, unset⟩

/-- A collision leaves the turn by station number at its sender, a request of its host in hand or not (R157, R160). -/
theorem gapSlots_turn_after_collision {s t : State} {mark : Bool} {h : Heard} (out : Running s)
    (damaged : ∀ f, classify s.straps.number mark h ≠ .good f) (sending : s.bus.state = .sending)
    (event : exec (.collision mark h) s = .next t) : gapSlots .turn t = 6 + 2 * s.straps.number.val := by
  have next : exec (.collision mark h) s = .next (collide mark h (carryOut s)) := atEvent_running _ out
  obtain rfl : collide mark h (carryOut s) = t := Host.Outcome.next.inj (next.symm.trans event)
  obtain ⟨straps, unset⟩ := collide_damaged (s := carryOut s) (by simpa using sending) (by simpa using damaged)
  rw [gapSlots_turn_of_unset unset, straps, carryOut_straps]

/-- A damaged frame leaves the turn by station number at a station that took no part in it, a request of its host in hand
or not (R156, R157). -/
theorem gapSlots_turn_after_damagedFrame {s t : State} {mark : Bool} {h : Heard} (out : Running s)
    (damaged : ∀ f, classify s.straps.number mark h ≠ .good f) (ended : CarrierOver mark s)
    (event : exec (.damagedFrame h) s = .next t) : gapSlots .turn t = 6 + 2 * s.straps.number.val := by
  have next : exec (.damagedFrame h) s = .next (heardBytesEnd h (carryOut s)) := atEvent_running _ out
  obtain rfl : heardBytesEnd h (carryOut s) = t := Host.Outcome.next.inj (next.symm.trans event)
  have ended' : CarrierOver mark (carryOut s) := by simpa only [CarrierOver, carryOut_bus] using ended
  rw [heardBytesEnd_over h ended', carryOut_straps]
  obtain ⟨straps, unset⟩ := heardEnd_damaged mark h (carryOut s) damaged
  rw [gapSlots_turn_of_unset unset, straps, carryOut_straps]

end Sys2Proof.Machine

namespace Sys2Proof

open Sys2Proof.Machine Sys2Proof.Safety

/-- Settles O32: by the laws of the turn position, and for a collision by what either end leaves of the reference sender.
With L unset station 2 waits 10 slots, as station 8 does with L = 5. -/
theorem turnPositionRotates : Obligations.TurnPositionRotates := by
  refine ⟨fun n l => ⟨turnPosition_lt n _, turnPosition_some_rotate n l⟩, turnPosition_none, fun n l => ?bounds,
    fun n m l distinct => ?distinct, fun l n => ?ends, fun n m below => ?byNumber, ⟨2, 8, none, some 5, ?equalGaps⟩,
    fun _ => rfl, fun s t mark h out damaged site => ?collision, ?table⟩
  case bounds =>
    have := turnPosition_lt n l
    unfold turnGap
    omega
  case distinct =>
    have place : turnPosition n l ≠ turnPosition m l := (turnPosition_injective l).ne distinct
    exact ⟨place, mt (turnGap_inj n m l l).1 place⟩
  case ends =>
    refine ⟨turnPosition_reference l, turnPosition_next l, ?_, ?_⟩
    · rw [turnGap_le_iff, turnPosition_reference]
      exact Nat.le_of_lt_succ (turnPosition_lt n _)
    · rw [turnGap_le_iff, turnPosition_next]
      exact Nat.zero_le _
  case byNumber =>
    rw [← not_le, turnGap_le_iff, not_le]
    exact below
  case equalGaps => decide
  case collision =>
    obtain ⟨sending, event⟩ | ⟨ended, event⟩ := site
    · exact gapSlots_turn_after_collision out damaged sending event
    · exact gapSlots_turn_after_damagedFrame out damaged ended event
  case table => decide

end Sys2Proof
end

/-! The laws of the port, the group, the store and the lists kept by every step, and what each command does. -/

section

-- One proof is elaborated after another: proofs elaborated at once need a thread, and its memory, each.
set_option Elab.async false

section
/-! What a station can do, said once: the moves that every command but a reset is made of, each with the guard under which it
is made. The laws that every step keeps are derived from the moves, not from the commands. -/

namespace Sys2Proof.Machine

open Sys2Proof.Safety

/-- What a run of moves may touch beside what every command may: the replicated tables and the station state, the reference
sender, the watch set. -/
structure Allowed where
  tables : Prop
  reference : Prop
  watch : Prop

/-- The moves of the Host Port. -/
inductive PortMove (watch : Prop) (p : HostPort) : HostPort → Prop where
  /-- phase, flags and SDO -/
  | admin (q : HostPort) (tickets : q.tickets = p.tickets) (order : q.order = p.order) (notices : q.notices = p.notices)
      (kept : q.watch = p.watch) : PortMove watch p q
  /-- a notice that finds room, a CHANGED of a watched region that has none standing (R137, R184) -/
  | post (n : Notice) (room : roomFree p = true) (other : ∀ k kind o, n ≠ .completion k kind o)
      (changed : ∀ r, isChangedFor r n = true → flag p.watch r = true ∧ p.notices.any (isChangedFor r) = false) :
      PortMove watch p { p with notices := p.notices ++ [n] }
  /-- a CHANGED merged into the one that stands for its region (R137) -/
  | merge (r : Region) (w : Station) (watched : flag p.watch r = true) :
      PortMove watch p
        { p with notices := p.notices.map fun n => if isChangedFor r n then .changed r w true else n }
  /-- the completion of a live ticket (R183) -/
  | finish (k : TicketNo) (t : Ticket) (o : Completion) (used : p.tickets[k] = some t) (live : t.state ≠ .done) :
      PortMove watch p { p with
        tickets := p.tickets.set k.val (some { t with state := .done })
        notices := p.notices ++ [.completion k t.kind o] }
  /-- a live ticket in another live state (R172) -/
  | advance (k : TicketNo) (t : Ticket) (st : TicketState) (used : p.tickets[k] = some t) (live : t.state ≠ .done)
      (still : st ≠ .done) : PortMove watch p { p with tickets := p.tickets.set k.val (some { t with state := st }) }
  /-- a free ticket issued, with room for its completion (R182) -/
  | issue (k : TicketNo) (t : Ticket) (free : p.tickets[k] = none) (room : roomFree p = true) (live : t.state ≠ .done) :
      PortMove watch p { p with tickets := p.tickets.set k.val (some t), order := p.order ++ [k] }
  /-- the oldest notice taken (R185) -/
  | take (n : Notice) (rest : List Notice) (oldest : p.notices = n :: rest) : PortMove watch p (dropOldest n p)
  /-- the watch set replaced (R135) -/
  | setWatch (w : Flags16) (may : watch) : PortMove watch p { p with watch := w }

/-- The draft and the outgoing bundle (R57). -/
def BundleLaw (b : BundleUnit) : Prop :=
  (b.draft.length ≤ 32 ∧ (b.draft.map (·.cell)).Nodup)
    ∧ ∀ o, b.outgoing = some o → o.entries.length ≤ 32 ∧ (o.entries.map (·.cell)).Nodup

/-- The mend list (R117). -/
def MendLaw (m : MendUnit) : Prop := m.cells.Nodup ∧ (m.current ≠ none → m.cells ≠ [])

/-- The service queue (R163). -/
def ServiceLaw (t : Transmit) : Prop :=
  t.replies.length ≤ 8 ∧ (t.drops.map (·.target)).Nodup ∧ ∀ d ∈ t.drops, d.cls = .settlement → d.reason = .noAck

/-- The snapshot cursor (R99). -/
def CursorLaw (u : SponsorUnit) : Prop := u.cursor ≤ 33 ∧ (u.joiners = [] → u.cursor = 0)

/-- A LEAVE is queued or unsettled (R86). -/
def LeaveQueued (t : Transmit) : Prop :=
  (∃ sl, t.slot = some sl ∧ sl.frame.body = .leave) ∨ ∃ e ∈ t.sendList, e.frame = .leave

/-- The frame in the slot bears the number n (R166). -/
def SlotOwn (n : Station) (t : Transmit) : Prop := ∀ sl, t.slot = some sl → sl.frame.head.sender = n

theorem capacityLaw_iff (s : State) :
    CapacityLaw s ↔ BundleLaw s.bundle ∧ MendLaw s.mend ∧ ServiceLaw s.tx ∧ s.access.collisions ≤ 8
      ∧ CursorLaw s.sponsor := by
  simp only [CapacityLaw, BundleLaw, MendLaw, ServiceLaw, CursorLaw]
  tauto

/-- One move of the station. -/
inductive Move (a : Allowed) (s : State) : State → Prop where
  | port (q : HostPort) (h : PortMove a.watch s.port q) : Move a s (s.withPort q)
  | mem (c : CellIx) (d : CellData) : Move a s (s.withMem (writeCellData s.mem c d))
  | cells (x : Vector CellRec 256) : Move a s (s.withCells x)
  | apply (x : ApplyUnit) : Move a s (s.withApply x)
  | bus (x : BusInterface) : Move a s (s.withBus x)
  | access (x : AccessTimer) (count : s.access.collisions ≤ 8 → x.collisions ≤ 8)
      (kept : x.reference = s.access.reference ∨ a.reference) : Move a s (s.withAccess x)
  | bundle (x : BundleUnit) (h : BundleLaw s.bundle → BundleLaw x) : Move a s (s.withBundle x)
  | mend (x : MendUnit) (h : MendLaw s.mend → MendLaw x) : Move a s (s.withMend x)
  | tx (x : Transmit) (h : ServiceLaw s.tx → ServiceLaw x) (leave : LeaveQueued x → LeaveQueued s.tx ∨ a.tables)
      (own : ∀ n, SlotOwn n s.tx → SlotOwn n x ∨ n ≠ s.straps.number) : Move a s (s.withTx x)
  /-- the timers, the listening condition, the departed mark and the settings -/
  | timers (x : Membership) (state : x.state = s.mship.state) (table : x.table = s.mship.table) : Move a s (s.withMship x)
  | cursor (n : Nat) (h : CursorLaw s.sponsor → CursorLaw { s.sponsor with cursor := n }) :
      Move a s (s.withSponsor { s.sponsor with cursor := n })
  | locks (x : Vector RegionEntry 16) (may : a.tables) : Move a s (s.withLocks x)
  | mship (x : Membership) (may : a.tables) : Move a s (s.withMship x)
  | sponsor (x : SponsorUnit) (may : a.tables) (h : CursorLaw s.sponsor → CursorLaw x) : Move a s (s.withSponsor x)

/-- A run of moves. -/
abbrev Moves (a : Allowed) : State → State → Prop := Relation.ReflTransGen (Move a)

theorem Move.run {a : Allowed} {s t : State} (h : Move a s t) : Moves a s t := .single h

section
variable {a : Allowed} {s : State}

theorem port_moves {q : HostPort} (h : PortMove a.watch s.port q) : Moves a s (s.withPort q) := (Move.port q h).run

theorem access_moves {x : AccessTimer} (count : s.access.collisions ≤ 8 → x.collisions ≤ 8)
    (kept : x.reference = s.access.reference ∨ a.reference) : Moves a s (s.withAccess x) := (Move.access x count kept).run

theorem bundle_moves {x : BundleUnit} (h : BundleLaw s.bundle → BundleLaw x) : Moves a s (s.withBundle x) :=
  (Move.bundle x h).run

theorem mend_moves {x : MendUnit} (h : MendLaw s.mend → MendLaw x) : Moves a s (s.withMend x) := (Move.mend x h).run

theorem tx_moves {x : Transmit} (h : ServiceLaw s.tx → ServiceLaw x) (leave : LeaveQueued x → LeaveQueued s.tx ∨ a.tables)
    (own : ∀ n, SlotOwn n s.tx → SlotOwn n x ∨ n ≠ s.straps.number) : Moves a s (s.withTx x) := (Move.tx x h leave own).run

theorem sponsor_moves {x : SponsorUnit} (may : a.tables) (h : CursorLaw s.sponsor → CursorLaw x) :
    Moves a s (s.withSponsor x) := (Move.sponsor x may h).run

end

/-- What every move keeps every run keeps. -/
theorem Moves.keeps {a : Allowed} {s t : State} (h : Moves a s t) (P : State → Prop)
    (kept : ∀ u v, Move a u v → P u → P v) (hs : P s) : P t := by
  induction h with
  | refl => exact hs
  | tail _ m ih => exact kept _ _ m ih

/-- A list of runs is a run. -/
theorem foldl_moves {a : Allowed} {α : Type} {f : State → α → State} (h : ∀ s x, Moves a s (f s x)) (l : List α)
    (s : State) :
    Moves a s (l.foldl f s) := by
  induction l generalizing s with
  | nil => exact .refl
  | cons x l ih => exact (h s x).trans (ih (f s x))

/-! ### The straps, the queue of commands and the cell memory -/

theorem Moves.pending {a : Allowed} {s t : State} (h : Moves a s t) : t.pending = s.pending :=
  h.keeps (fun u => u.pending = s.pending) (fun _ _ m e => by cases m <;> exact e) rfl

theorem Moves.straps {a : Allowed} {s t : State} (h : Moves a s t) : t.straps = s.straps :=
  h.keeps (fun u => u.straps = s.straps) (fun _ _ m e => by cases m <;> exact e) rfl

theorem Moves.keeps_storeLaw {a : Allowed} {s t : State} (h : Moves a s t) : StoreLaw s → StoreLaw t := by
  refine h.keeps StoreLaw fun u v m law => ?_
  cases m with
  | mem c d =>
    refine ⟨writeCellData_wf c d law.1, fun p hp => ?_⟩
    obtain inside | before := mem_writeCellData hp
    · have := c.isLt
      omega
    · exact law.2 p before
  | _ => exact law

theorem Moves.keeps_capacityLaw {a : Allowed} {s t : State} (h : Moves a s t) : CapacityLaw s → CapacityLaw t := by
  refine h.keeps CapacityLaw fun u v m law => ?_
  rw [capacityLaw_iff] at law ⊢
  obtain ⟨bundle, mend, service, count, cursor⟩ := law
  cases m with
  | bundle x hx => exact ⟨hx bundle, mend, service, count, cursor⟩
  | mend x hx => exact ⟨bundle, hx mend, service, count, cursor⟩
  | tx x hx => exact ⟨bundle, mend, hx service, count, cursor⟩
  | access x hx => exact ⟨bundle, mend, service, hx count, cursor⟩
  | cursor n hn => exact ⟨bundle, mend, service, count, hn cursor⟩
  | sponsor x _ hx => exact ⟨bundle, mend, service, count, hx cursor⟩
  | _ => exact ⟨bundle, mend, service, count, cursor⟩

/-- Without leave to change it the reference sender stands. -/
theorem Moves.reference_kept {a : Allowed} {s t : State} (h : Moves a s t) (not : ¬ a.reference) :
    t.access.reference = s.access.reference := by
  refine h.keeps (fun u => u.access.reference = s.access.reference) (fun u v m e => ?_) rfl
  cases m with
  | access x _ kept => exact (kept.resolve_right not).trans e
  | _ => exact e

/-! ### The Host Port -/

theorem getElem_set_fin {α : Type} {n : Nat} (v : Vector α n) (k j : Fin n) (x : α) :
    (v.set k.val x)[j] = if j = k then x else v[j] := by
  simp only [Fin.getElem_fin, Vector.getElem_set, Fin.ext_iff, eq_comm]

/-- The slots reserved after one ticket's change: its own by what it is now, the others as before (R184). -/
theorem reserved_set {p q : HostPort} {k : TicketNo} {x : Option Ticket} (h : q.tickets = p.tickets.set k.val x) :
    reserved q + (if p.tickets[k].any ticketLive then 1 else 0) = reserved p + (if x.any ticketLive then 1 else 0) := by
  have here : p.tickets.toList[k.val]'(by simp) = p.tickets[k] := Vector.getElem_toList _
  have counted : p.tickets[k].any ticketLive = true → 0 < p.tickets.toList.countP (·.any ticketLive) := fun h =>
    List.countP_pos_iff.2 ⟨p.tickets[k], Vector.mem_toList_iff.2 (Vector.getElem_mem _), h⟩
  unfold reserved
  rw [h, Vector.toList_set, List.countP_set (by simp), here]
  split <;> rename_i h
  · have := counted h
    omega
  · rfl

theorem reserved_congr {p q : HostPort} (h : q.tickets = p.tickets) : reserved q = reserved p := by
  unfold reserved
  rw [h]

theorem ticketLive_iff (t : Ticket) : ticketLive t = true ↔ t.state ≠ .done := by simp [ticketLive]

theorem roomFree_iff (p : HostPort) : roomFree p = true ↔ p.notices.length + reserved p < 32 := decide_eq_true_iff

/-- The ticket a DONE ticket's completion waits for: the flag that the law of the notice queue counts by (R183). -/
def ticketDone (t : Option Ticket) : Bool := t.any (·.state == .done)

theorem ticketDone_some (t : Ticket) : ticketDone (some t) = true ↔ t.state = .done := by simp [ticketDone]

/-- The law of tickets and notices, of the port alone. -/
def PortOk (p : HostPort) : Prop :=
  p.notices.length + reserved p ≤ 32
    ∧ p.order.Nodup
    ∧ (∀ k, k ∈ p.order ↔ p.tickets[k] ≠ none)
    ∧ (∀ k, p.notices.countP (isCompletionOf k) = if ticketDone p.tickets[k] then 1 else 0)
    ∧ ∀ r, p.notices.countP (isChangedFor r) ≤ 1

theorem portLaw_iff (s : State) : PortLaw s ↔ PortOk s.port := Iff.rfl

theorem isCompletionOf_iff (k : TicketNo) (n : Notice) :
    isCompletionOf k n = true ↔ ∃ kind o, n = .completion k kind o := by
  cases n with
  | completion j kind o => simp [isCompletionOf]
  | _ => simp [isCompletionOf]

theorem isChangedFor_iff (r : Region) (n : Notice) : isChangedFor r n = true ↔ ∃ w b, n = .changed r w b := by
  cases n with
  | changed r' w b => simp [isChangedFor]
  | _ => simp [isChangedFor]

/-- A merged CHANGED stands where one of its region stood, so no count by ticket or region moves. -/
theorem countP_merge (q : Notice → Bool) (r : Region) (w : Station) (l : List Notice)
    (same : ∀ n, isChangedFor r n = true → q n = q (.changed r w true)) :
    (l.map fun n => if isChangedFor r n then .changed r w true else n).countP q = l.countP q := by
  rw [List.countP_map]
  refine List.countP_congr fun n _ => ?_
  by_cases h : isChangedFor r n = true
  · simp [h, same n h]
  · simp [h]

section
variable {watch : Prop} {p q : HostPort}

/-- A ticket changed between two live states leaves the law as it is. -/
theorem PortOk.set_live {k : TicketNo} {t u : Ticket} (law : PortOk p) (used : p.tickets[k] = some t)
    (live : t.state ≠ .done) (still : u.state ≠ .done) :
    PortOk { p with tickets := p.tickets.set k.val (some u) } := by
  obtain ⟨room, nodup, named, done, changed⟩ := law
  have same := reserved_set (q := { p with tickets := p.tickets.set k.val (some u) }) rfl
  simp only [used, Option.any_some, (ticketLive_iff t).2 live, (ticketLive_iff u).2 still, if_true, Nat.add_right_cancel_iff]
    at same
  refine ⟨by rw [same]; exact room, nodup, fun j => ?_, fun j => ?_, changed⟩
  · rw [named, getElem_set_fin]
    split
    · subst j
      simp [used]
    · rfl
  · rw [done, getElem_set_fin]
    by_cases h : j = k
    · subst j
      simp [used, ticketDone, live, still]
    · rw [if_neg h]

/-- A completion fills the slot reserved for it (R183, R184). -/
theorem PortOk.finish {k : TicketNo} {t : Ticket} {o : Completion} (law : PortOk p) (used : p.tickets[k] = some t)
    (live : t.state ≠ .done) :
    PortOk { p with
      tickets := p.tickets.set k.val (some { t with state := .done })
      notices := p.notices ++ [.completion k t.kind o] } := by
  obtain ⟨room, nodup, named, done, changed⟩ := law
  have count := reserved_set (q := { p with
    tickets := p.tickets.set k.val (some { t with state := .done })
    notices := p.notices ++ [.completion k t.kind o] }) rfl
  simp only [used, Option.any_some, (ticketLive_iff t).2 live, if_true] at count
  refine ⟨?_, nodup, fun j => ?_, fun j => ?_, fun r => ?_⟩
  · simp only [ticketLive, bne_self_eq_false, Bool.false_eq_true, if_false] at count
    simp only [List.length_append, List.length_cons, List.length_nil]
    omega
  · rw [named, getElem_set_fin]
    split
    · subst j
      simp [used]
    · rfl
  · rw [List.countP_append, done, getElem_set_fin]
    by_cases h : j = k
    · subst j
      simp [used, ticketDone, live, isCompletionOf]
    · simp [h, isCompletionOf, Ne.symm h]
  · rw [List.countP_append]
    exact changed r

/-- An issued ticket takes a reserved slot and the last place in the order (R182). -/
theorem PortOk.issue {k : TicketNo} {t : Ticket} (law : PortOk p) (free : p.tickets[k] = none)
    (space : roomFree p = true) (live : t.state ≠ .done) :
    PortOk { p with tickets := p.tickets.set k.val (some t), order := p.order ++ [k] } := by
  obtain ⟨-, nodup, named, done, changed⟩ := law
  have count := reserved_set (q := { p with tickets := p.tickets.set k.val (some t), order := p.order ++ [k] }) rfl
  simp only [free, Option.any_none, Option.any_some, (ticketLive_iff t).2 live, if_true, Bool.false_eq_true,
    if_false] at count
  have unnamed : k ∉ p.order := fun h => (named k).1 h free
  refine ⟨?_, ?_, fun j => ?_, fun j => ?_, changed⟩
  · rw [roomFree_iff] at space
    dsimp only at count ⊢
    omega
  · simpa [List.nodup_append, nodup] using fun j hj (e : j = k) => unnamed (e ▸ hj)
  · rw [List.mem_append, named, List.mem_singleton, getElem_set_fin]
    by_cases h : j = k <;> simp [h]
  · rw [done, getElem_set_fin]
    by_cases h : j = k
    · subst j
      simp [free, ticketDone, live]
    · rw [if_neg h]

/-- The oldest notice taken frees its ticket, if it is a completion (R183, R185). -/
theorem PortOk.take {n : Notice} {rest : List Notice} (law : PortOk p) (oldest : p.notices = n :: rest) :
    PortOk (dropOldest n p) := by
  obtain ⟨room, nodup, named, done, changed⟩ := law
  have fewer : ∀ r, rest.countP (isChangedFor r) ≤ 1 := fun r =>
    le_trans (by rw [oldest, List.countP_cons]; omega) (changed r)
  rw [oldest, List.length_cons] at room
  by_cases completion : ∃ k kind o, n = .completion k kind o
  · obtain ⟨k, kind, o, rfl⟩ := completion
    have mine := done k
    have isDone : ticketDone p.tickets[k] = true := by
      by_contra h
      rw [oldest, List.countP_cons_of_pos (by simp [isCompletionOf]), if_neg h] at mine
      omega
    have count := reserved_set (p := p) (q := dropOldest (.completion k kind o) p) (k := k) (x := none) rfl
    have dead : p.tickets[k].any ticketLive = false := by
      cases e : p.tickets[k] with
      | none => rfl
      | some t => rw [e, ticketDone_some] at isDone; simp [ticketLive, isDone]
    simp only [dead, Option.any_none, Bool.false_eq_true, if_false] at count
    refine ⟨?_, nodup.filter _, fun j => ?_, fun j => ?_, ?_⟩
    · have shorter : (dropOldest (.completion k kind o) p).notices = rest := by simp [dropOldest, freeUp, oldest]
      rw [shorter]
      omega
    · simp only [dropOldest, freeUp, List.mem_filter, named, getElem_set_fin]
      by_cases h : j = k <;> simp [h]
    · simp only [dropOldest, freeUp, oldest, List.tail_cons, getElem_set_fin]
      have its := done j
      rw [oldest, List.countP_cons] at its
      by_cases h : j = k
      · subst j
        rw [isDone] at its
        simp only [isCompletionOf, beq_self_eq_true, if_true] at its
        simp only [if_true, ticketDone, Option.any_none, Bool.false_eq_true, if_false]
        exact Nat.succ.inj its
      · simpa [isCompletionOf, h, Ne.symm h] using its
    · simpa only [dropOldest, freeUp, oldest, List.tail_cons] using fewer
  · have plain : dropOldest n p = { p with notices := rest } := by
      cases n <;> simp [dropOldest, oldest] at completion ⊢
    rw [plain]
    refine ⟨by show rest.length + reserved p ≤ 32; omega, nodup, named, fun j => ?_, fewer⟩
    have its := done j
    rw [oldest, List.countP_cons_of_neg (by rw [isCompletionOf_iff]; exact fun ⟨kind, o, e⟩ => completion ⟨j, kind, o, e⟩)]
      at its
    exact its

/-- Every move of the port keeps the law of tickets and notices. -/
theorem PortMove.keeps_law (m : PortMove watch p q) (law : PortOk p) : PortOk q := by
  cases m with
  | admin q tickets order notices _ => simpa only [PortOk, reserved, tickets, order, notices] using law
  | setWatch w => exact law
  | finish k t o used live => exact law.finish used live
  | advance k t st used live still => exact law.set_live used live still
  | issue k t free room live => exact law.issue free room live
  | take n rest oldest => exact law.take oldest
  | post n room other changed =>
    obtain ⟨-, nodup, named, done, before⟩ := law
    have notDone : ∀ k, isCompletionOf k n = false := fun k => by
      rw [Bool.eq_false_iff, Ne, isCompletionOf_iff]
      exact fun ⟨kind, o, e⟩ => other k kind o e
    refine ⟨?_, nodup, named, fun k => ?_, fun r => ?_⟩
    · have space : p.notices.length + reserved p < 32 := (roomFree_iff p).1 room
      rw [List.length_append, List.length_singleton,
        reserved_congr (p := p) (q := { p with notices := p.notices ++ [n] }) rfl]
      omega
    · rw [List.countP_append, done, List.countP_singleton, notDone]
      rfl
    · rw [List.countP_append, List.countP_singleton]
      cases h : isChangedFor r n with
      | false => exact before r
      | true =>
        have none_yet : p.notices.countP (isChangedFor r) = 0 := by
          rw [List.countP_eq_zero]
          simpa using (changed r h).2
        rw [none_yet]
        exact le_rfl
  | merge r w =>
    obtain ⟨room, nodup, named, done, before⟩ := law
    refine ⟨by rw [List.length_map]; exact room, nodup, named, fun k => ?_, fun r' => ?_⟩
    · rw [countP_merge _ r w _ fun n h => ?_]
      · exact done k
      · obtain ⟨w', b, rfl⟩ := (isChangedFor_iff r n).1 h
        rfl
    · rw [countP_merge _ r w _ fun n h => ?_]
      · exact before r'
      · obtain ⟨w', b, rfl⟩ := (isChangedFor_iff r n).1 h
        rfl

/-- Without leave to change it the watch set stands. -/
theorem PortMove.watch_kept (m : PortMove watch p q) (not : ¬ watch) : q.watch = p.watch := by
  cases m with
  | admin q _ _ _ kept => exact kept
  | setWatch w may => exact absurd may not
  | take n => cases n <;> rfl
  | _ => rfl

/-- No CHANGED of a region that is not watched is posted or altered (R136). -/
theorem PortMove.changed_of_unwatched {r : Region} {n : Notice} (m : PortMove watch p q) (unwatched : flag p.watch r = false)
    (hn : n ∈ q.notices) (hc : isChangedFor r n = true) : n ∈ p.notices := by
  cases m with
  | admin q _ _ notices _ => exact notices ▸ hn
  | post n' _ _ changed =>
    obtain before | rfl := by simpa using hn
    · exact before
    · simp [(changed r hc).1] at unwatched
  | merge r' w watched =>
    obtain ⟨n', before, rfl⟩ := List.mem_map.1 hn
    by_cases h : isChangedFor r' n' = true
    · rw [if_pos h, isChangedFor, beq_iff_eq] at hc
      rw [← hc, watched] at unwatched
      exact absurd unwatched (by decide)
    · rwa [if_neg h]
  | finish k t o =>
    obtain before | rfl := by simpa using hn
    · exact before
    · simp [isChangedFor] at hc
  | advance => exact hn
  | issue => exact hn
  | take n' =>
    have : n ∈ p.notices.tail := by cases n' <;> exact hn
    exact List.mem_of_mem_tail this
  | setWatch => exact hn

end

theorem Moves.keeps_portLaw {a : Allowed} {s t : State} (h : Moves a s t) : PortLaw s → PortLaw t := by
  refine h.keeps PortLaw fun u v m law => ?_
  cases m with
  | port q move => exact move.keeps_law law
  | _ => exact law

/-- Without leave to change it the watch set stands. -/
theorem Moves.watch_kept {a : Allowed} {s t : State} (h : Moves a s t) (not : ¬ a.watch) : t.port.watch = s.port.watch := by
  refine h.keeps (fun u => u.port.watch = s.port.watch) (fun u v m e => ?_) rfl
  cases m with
  | port q move => exact (move.watch_kept not).trans e
  | _ => exact e

/-- No CHANGED of a region that is not watched is posted or altered (R136). -/
theorem Moves.changed_of_unwatched {a : Allowed} {s t : State} (h : Moves a s t) (not : ¬ a.watch) {r : Region}
    (unwatched : flag s.port.watch r = false) : ∀ n ∈ t.port.notices, isChangedFor r n = true → n ∈ s.port.notices := by
  induction h with
  | refl => exact fun n hn _ => hn
  | @tail u v run m ih =>
    have unwatched' : flag u.port.watch r = false := by rw [Moves.watch_kept run not]; exact unwatched
    intro n hn hc
    refine ih n ?_ hc
    cases m with
    | port q move => exact move.changed_of_unwatched unwatched' hn hc
    | _ => exact hn

/-! ### The replicated tables -/

/-- The law of the replicated tables reads the station state, the tables, the sponsor list, the straps and what the Transmit
Selector holds of a LEAVE and of the sender of its frame. -/
theorem groupLaw_of_same {s t : State} (straps : t.straps = s.straps) (locks : t.locks = s.locks)
    (state : t.mship.state = s.mship.state) (table : t.mship.table = s.mship.table)
    (joiners : t.sponsor.joiners = s.sponsor.joiners) (leave : LeaveQueued t.tx → LeaveQueued s.tx)
    (own : SlotOwn s.straps.number s.tx → SlotOwn s.straps.number t.tx) (law : GroupLaw s) : GroupLaw t := by
  obtain ⟨hl, ht, hs, member, filling, leaving, noTable, inLeaving, slot⟩ := law
  refine ⟨?_, ?_, ?_, ?_⟩
  · simpa only [LockLaw, locks, table] using hl
  · simpa only [TableLaw, table] using ht
  · simpa only [SponsorLaw, joiners, table, straps] using hs
  · refine ⟨?_, ?_, ?_, ?_, fun h => ?_, ?_⟩
    · simpa only [state, table, straps] using member
    · simpa only [state, table, straps] using filling
    · simpa only [state, table, straps] using leaving
    · simpa only [state, table] using noTable
    · rw [state]
      exact inLeaving (leave h)
    · rw [straps]
      exact own slot

/-- A run without leave to touch the replicated tables keeps their law. -/
theorem Moves.keeps_groupLaw {a : Allowed} {s t : State} (h : Moves a s t) (not : ¬ a.tables) : GroupLaw s → GroupLaw t := by
  refine h.keeps GroupLaw fun u v m law => ?_
  cases m with
  | tx x _ leave own =>
    exact groupLaw_of_same (s := u) rfl rfl rfl rfl rfl (fun h => (leave h).resolve_right not)
      (fun h => (own _ h).resolve_right (not_not.2 rfl)) law
  | timers x state table => exact groupLaw_of_same (s := u) rfl rfl state table rfl id id law
  | cursor n => exact groupLaw_of_same (s := u) rfl rfl rfl rfl rfl id id law
  | locks x may => exact absurd may not
  | mship x may => exact absurd may not
  | sponsor x may => exact absurd may not
  | _ => exact law

end Sys2Proof.Machine
end

section
/-! The moves that each shared operation is made of, block by block. -/

namespace Sys2Proof.Machine

open Sys2Proof.Safety

variable {a : Allowed}

/-! ### The Request Table and the notice queue -/

/-- A notice that is neither a completion nor a CHANGED. -/
def plainNotice (n : Notice) : Bool :=
  match n with
  | .completion _ _ _ | .changed _ _ _ => false
  | .signalIn _ _ | .memberIn _ | .memberOut _ _ | .leftGroup _ | .cellLost _ | .foreign _ | .lineFault => true

theorem admin_moves (s : State) (q : HostPort) (tickets : q.tickets = s.port.tickets) (order : q.order = s.port.order)
    (notices : q.notices = s.port.notices) (watch : q.watch = s.port.watch) : Moves a s (s.withPort q) :=
  (Move.port q (.admin q tickets order notices watch)).run

theorem postNotice_moves_of {n : Notice} (s : State) (other : ∀ k kind o, n ≠ .completion k kind o)
    (changed : ∀ r, isChangedFor r n = true → flag s.port.watch r = true ∧ s.port.notices.any (isChangedFor r) = false) :
    Moves a s (postNotice n s) := by
  cases h : roomFree s.port
  · rw [postNotice_full h]
    exact admin_moves s _ rfl rfl rfl rfl
  · rw [postNotice_room h]
    exact (Move.port _ (.post n h other changed)).run

theorem postNotice_moves {n : Notice} (plain : plainNotice n = true) (s : State) : Moves a s (postNotice n s) := by
  refine postNotice_moves_of s ?_ ?_ <;> cases n <;> simp_all [plainNotice, isChangedFor]

theorem complete_moves (k : TicketNo) (o : Completion) (s : State) : Moves a s (complete k o s) := by
  unfold complete
  split
  · rename_i t used
    split
    · rename_i live
      exact (Move.port _ (.finish k t o used ((ticketLive_iff t).1 live))).run
    · exact .refl
  · exact .refl

theorem completeAll_moves (ks : List TicketNo) (o : Completion) (s : State) : Moves a s (completeAll ks o s) :=
  foldl_moves (fun s k => complete_moves k o s) ks s

theorem completeFor_moves (kind : RequestKind) (r : Region) (o : Completion) (s : State) :
    Moves a s (completeFor kind r o s) := by
  unfold completeFor
  split
  · exact complete_moves _ o s
  · exact .refl

theorem advanceTicket_moves (k : TicketNo) {st : TicketState} (still : st ≠ .done) (s : State) :
    Moves a s (advanceTicket k st s) := by
  unfold advanceTicket
  split
  · rename_i t used
    split
    · rename_i live
      exact (Move.port _ (.advance k t st used ((ticketLive_iff t).1 live) still)).run
    · exact .refl
  · exact .refl

theorem postChanged_moves {r : Region} (w : Station) {s : State} (watched : flag s.port.watch r = true) :
    Moves a s (postChanged r w s) := by
  unfold postChanged
  split
  · exact (Move.port _ (.merge r w watched)).run
  · rename_i none_yet
    refine postNotice_moves_of s (by simp) fun r' h => ?_
    obtain rfl : r = r' := by simpa [isChangedFor] using h
    exact ⟨watched, Bool.eq_false_iff.2 none_yet⟩

/-- A ticket is free, and there is room for a completion: all that its issue needs (R182). -/
def Ready (k : TicketNo) (p : HostPort) : Prop := p.tickets[k] = none ∧ roomFree p = true

theorem ready_of_issuable {k : TicketNo} {p : HostPort} (h : issuable p = some k) : Ready k p := by
  obtain ⟨free, -, room⟩ := (issuable_eq_some_iff p k).1 h
  exact ⟨free, (roomFree_iff p).2 room⟩

/-- A completion fills a reserved slot, so that what could be issued before it still can (R182, R184). -/
theorem complete_ready {k : TicketNo} {s : State} (j : TicketNo) (o : Completion) (h : Ready k s.port) :
    Ready k (complete j o s).port := by
  obtain ⟨free, room⟩ := h
  unfold complete
  split
  · rename_i t used
    split
    · rename_i live
      have other : k ≠ j := by
        rintro rfl
        rw [free] at used
        cases used
      have count := reserved_set (p := s.port) (k := j) (x := some { t with state := .done })
        (q := { s.port with
          tickets := s.port.tickets.set j.val (some { t with state := .done })
          notices := s.port.notices ++ [.completion j t.kind o] }) rfl
      have dead : ticketLive { t with state := .done } = false := rfl
      simp only [used, Option.any_some, live, dead, if_true, Bool.false_eq_true, if_false] at count
      refine ⟨by simpa only [State.withPort_port, getElem_set_fin, other, if_false] using free, ?_⟩
      rw [roomFree_iff] at room ⊢
      simp only [State.withPort_port, List.length_append, List.length_singleton]
      omega
    · exact ⟨free, room⟩
  · exact ⟨free, room⟩

theorem completeAll_ready {k : TicketNo} {s : State} (ks : List TicketNo) (o : Completion) (h : Ready k s.port) :
    Ready k (completeAll ks o s).port := by
  induction ks generalizing s with
  | nil => exact h
  | cons j ks ih => exact ih (complete_ready j o h)

@[simp] theorem complete_bundle (k : TicketNo) (o : Completion) (s : State) : (complete k o s).bundle = s.bundle := by
  obtain ⟨p, hp⟩ := complete_port k o s
  rw [hp, State.withPort_bundle]

theorem issue_moves {k : TicketNo} {s : State} (kind : RequestKind) (arg : TicketArg) (link : Option TicketNo)
    (h : Ready k s.port) : Moves a s (issue k kind arg link s) :=
  (Move.port _ (.issue k _ h.1 h.2 (by simp))).run

/-! ### Timers -/

theorem timers_moves (s : State) (x : Membership) (state : x.state = s.mship.state) (table : x.table = s.mship.table) :
    Moves a s (s.withMship x) := (Move.timers x state table).run

theorem restartPresence_moves (s : State) : Moves a s (restartPresence s) := timers_moves s _ rfl rfl
theorem startPresence_moves (s : State) : Moves a s (startPresence s) := timers_moves s _ rfl rfl
theorem setSilence_moves (x : Station) (v : Option Nat) (s : State) :
    Moves a s (setSilence x v s) := timers_moves s _ rfl rfl
theorem stopSilence_moves (s : State) : Moves a s (stopSilence s) := timers_moves s _ rfl rfl
theorem meetListening_moves (s : State) : Moves a s (meetListening s) := by
  unfold meetListening
  split
  · exact .refl
  · exact timers_moves s _ rfl rfl

/-! ### The service queue and the slot -/

/-- A change of the Transmit Selector that leaves the slot and the host send list. -/
theorem service_moves (s : State) (x : Transmit) (slot : x.slot = s.tx.slot) (list : x.sendList = s.tx.sendList)
    (h : ServiceLaw s.tx → ServiceLaw x) : Moves a s (s.withTx x) := by
  refine (Move.tx x h (fun leave => .inl ?_) fun n own => .inl ?_).run
  · rwa [LeaveQueued, slot, list] at leave
  · rwa [SlotOwn, slot]

/-- A change of the slot to one whose frame bears the same number and is a LEAVE only if the old one was. -/
theorem setSlot_moves {s : State} {old new : Slot} (held : s.tx.slot = some old)
    (sender : new.frame.head.sender = old.frame.head.sender) (leave : new.frame.body = .leave → old.frame.body = .leave) :
    Moves a s (setSlot (some new) s) := by
  refine (Move.tx { s.tx with slot := some new } (fun h => h) (fun q => .inl ?_) fun n own => .inl ?_).run
  · obtain ⟨sl, e, body⟩ | queued := q
    · obtain rfl : new = sl := Option.some.inj e
      exact .inl ⟨old, held, leave body⟩
    · exact .inr queued
  · intro sl e
    obtain rfl : new = sl := Option.some.inj e
    exact sender.trans (own old held)

/-- A slot emptied, whatever else changes of the Transmit Selector but its lists. -/
theorem emptySlot_moves (s : State) (x : Transmit) (slot : x.slot = none) (list : x.sendList = s.tx.sendList)
    (h : ServiceLaw s.tx → ServiceLaw x) : Moves a s (s.withTx x) := by
  refine (Move.tx x h (fun leave => .inl ?_) fun n own => .inl ?_).run
  · rw [LeaveQueued, slot, list] at leave
    exact .inr (leave.resolve_left (by simp))
  · simp [SlotOwn, slot]

theorem setSlot_none_moves (s : State) : Moves a s (setSlot none s) := emptySlot_moves s _ rfl rfl id

/-- The service queue stays within its law when DROPs and MENDREPLY entries leave it. -/
theorem ServiceLaw.sublist {t x : Transmit} (law : ServiceLaw t) (drops : x.drops.Sublist t.drops)
    (replies : x.replies.Sublist t.replies) : ServiceLaw x := by
  obtain ⟨few, nodup, reason⟩ := law
  exact ⟨replies.length_le.trans few, nodup.sublist (drops.map _), fun d hd => reason d (drops.subset hd)⟩

theorem withdrawDrops_moves (x : Station) (s : State) : Moves a s (withdrawDrops x s) :=
  service_moves s _ rfl rfl fun law => law.sublist List.filter_sublist (List.Sublist.refl _)

theorem withdrawSilentDrop_moves (x : Station) (s : State) : Moves a s (withdrawSilentDrop x s) :=
  service_moves s _ rfl rfl fun law => law.sublist List.filter_sublist (List.Sublist.refl _)

theorem signOfLife_moves (x : Station) (s : State) : Moves a s (signOfLife x s) :=
  (setSilence_moves x _ s).trans (withdrawSilentDrop_moves x _)

theorem abandonUnheardFragment_moves (s : State) : Moves a s (abandonUnheardFragment s) := by
  unfold abandonUnheardFragment
  split
  · split
    · exact emptySlot_moves s _ rfl rfl id
    · exact .refl
  · exact .refl

theorem completeCommit_moves (o : Completion) (s : State) : Moves a s (completeCommit o s) := by
  unfold completeCommit
  split
  · refine (complete_moves _ o s).trans (Move.bundle _ fun law => ?_).run
    rw [complete_bundle] at law
    exact ⟨law.1, by simp⟩
  · exact .refl

/-! ### Mends -/

/-- The Mend Unit replaced by one whose list is the same or shorter, with no current mend. -/
theorem idleMend_moves (s : State) (x : MendUnit) (cells : x.cells.Sublist s.mend.cells) (idle : x.current = none) :
    Moves a s (s.withMend x) :=
  (Move.mend x fun law => ⟨law.1.sublist cells, fun busy => absurd idle busy⟩).run

/-- A change of the MEND slot. -/
theorem mendSlot_moves (m : Option MendEntry) (s : State) : Moves a s (s.withTx { s.tx with mend := m }) :=
  service_moves s _ rfl rfl id

theorem askResponder_moves (x : Station) (c : CellIx) (tried : Flags16) {s : State} (cells : s.mend.cells ≠ []) :
    Moves a s (askResponder x c tried s) :=
  .trans
    (Move.mend { s.mend with current := some { responder := x, tried := flagSet tried x, window := none } } fun law =>
      ⟨law.1, fun _ => cells⟩).run
    (mendSlot_moves _ _)

@[simp] theorem postNotice_mend (n : Notice) (s : State) : (postNotice n s).mend = s.mend := by
  obtain ⟨p, hp, -⟩ := postNotice_changes n s
  rw [hp, State.withPort_mend]

theorem beginFrom_moves {cs : List CellIx} {s : State} (from_list : cs.Sublist s.mend.cells) :
    Moves a s (beginFrom cs s) := by
  induction cs generalizing s with
  | nil => exact idleMend_moves s _ from_list rfl
  | cons c rest ih =>
    unfold beginFrom
    split
    · exact (idleMend_moves s _ from_list rfl).trans (askResponder_moves _ c 0 (by simp))
    · refine (postNotice_moves (n := .cellLost c) rfl s).trans (ih ?_)
      rw [postNotice_mend]
      exact (List.sublist_cons_self c rest).trans from_list

theorem beginMend_moves (s : State) : Moves a s (beginMend s) := by
  unfold beginMend
  split
  · exact beginFrom_moves (List.Sublist.refl _)
  · exact .refl

theorem endMend_moves (s : State) : Moves a s (endMend s) :=
  (idleMend_moves s _ (List.tail_sublist _) rfl).trans (mendSlot_moves none _)

theorem attemptMend_moves (s : State) : Moves a s (attemptMend s) := by
  unfold attemptMend
  split
  · rename_i m c rest _ cells
    split
    · split
      · exact askResponder_moves _ c _ (by simp [cells])
      · exact ((endMend_moves s).trans (postNotice_moves (n := .cellLost c) rfl _)).trans (beginMend_moves _)
    · exact (idleMend_moves s { s.mend with current := none } (List.Sublist.refl _) rfl).trans (mendSlot_moves none _)
  · exact .refl

theorem mendPeerLost_moves (x : Station) (s : State) : Moves a s (mendPeerLost x s) := by
  have first : Moves a s (s.withTx { s.tx with replies := s.tx.replies.filter (·.requester != x) }) :=
    service_moves s _ rfl rfl fun law => law.sublist (List.Sublist.refl _) List.filter_sublist
  unfold mendPeerLost
  dsimp only
  split
  · split
    · exact first.trans (attemptMend_moves _)
    · exact first
  · exact first

/-- The current mend's cell stays the head of a list that another cell leaves. -/
theorem mendCellWritten_moves (c : CellIx) (s : State) : Moves a s (mendCellWritten c s) := by
  unfold mendCellWritten
  split
  · exact endMend_moves s
  · rename_i other
    refine (Move.mend { s.mend with cells := s.mend.cells.filter (· != c) } fun law =>
      ⟨law.1.filter _, fun (busy : s.mend.current ≠ none) => ?_⟩).run
    obtain ⟨m, current⟩ := Option.ne_none_iff_exists'.1 busy
    have cells := law.2 busy
    obtain ⟨head, rest, e⟩ := List.exists_cons_of_ne_nil cells
    have stays : head ≠ c := by
      rintro rfl
      exact other (by simp only [currentCell, current, e, List.head?_cons])
    simp [e, stays]

theorem mendAfterWrite_moves (recs : List WriteRecord) (s : State) : Moves a s (mendAfterWrite recs s) :=
  (foldl_moves (fun s (r : WriteRecord) => mendCellWritten_moves r.cell s) recs s).trans (beginMend_moves _)

theorem listForMend_moves (c : CellIx) (s : State) : Moves a s (listForMend c s) := by
  unfold listForMend
  split
  · rename_i h
    refine (Move.mend _ fun law => ⟨?_, fun _ => by simp⟩).run
    simpa [List.nodup_append, law.1] using fun b hb (e : b = c) => h.2 (e ▸ hb)
  · exact .refl

/-! ### The Store -/

theorem setCell_moves (c : CellIx) (r : CellRec) (s : State) : Moves a s (setCell c r s) := (Move.cells _).run

theorem writeCell_moves (c : CellIx) (v : Version) (d : CellData) (fresh : Bool) (s : State) :
    Moves a s (writeCell c v d fresh s) := .trans (Move.mem c d).run (setCell_moves c _ _)

theorem damageCell_moves (c : CellIx) (s : State) : Moves a s (damageCell c s) :=
  (setCell_moves c _ s).trans (listForMend_moves c _)

theorem verifyForHost_moves (c : CellIx) (s : State) : Moves a s (verifyForHost c s) := by
  unfold verifyForHost
  split
  · split
    · exact .refl
    · exact damageCell_moves c s
  · split
    · exact .refl
    · exact damageCell_moves c s
  · exact .refl
  · exact .refl

theorem verifyForBuild_moves (c : CellIx) (s : State) : Moves a s (verifyForBuild c s) := by
  unfold verifyForBuild
  split
  · split
    · exact .refl
    · exact damageCell_moves c s
  · exact .refl
  · exact .refl
  · exact .refl

theorem applySnapRecords_moves (g : Group) (recs : Vector SnapRecord 8) (s : State) :
    Moves a s (applySnapRecords g recs s) := by
  refine foldl_moves (fun s i => ?_) _ s
  unfold applySnapRecord
  split
  · exact .refl
  · split
    · exact writeCell_moves _ _ _ _ _
    · exact setCell_moves _ _ _

/-! ### MEND and MENDREPLY -/

theorem applyMend_moves (sender target : Station) (c : CellIx) (s : State) : Moves a s (applyMend sender target c s) := by
  unfold applyMend
  split
  · rename_i h
    refine service_moves s _ rfl rfl fun law => ⟨?_, law.2⟩
    rw [List.length_append]
    exact h.2.2.2
  · exact .refl

theorem applyMendReply_moves (sender target : Station) (c : CellIx) (answer : MendAnswer) (s : State) :
    Moves a s (applyMendReply sender target c answer s) := by
  unfold applyMendReply
  split
  · split
    · refine .trans ?_ ((endMend_moves _).trans (beginMend_moves _))
      split
      · exact writeCell_moves _ _ _ _ _
      · exact .refl
    · split
      · split
        · exact attemptMend_moves s
        · exact .refl
      · exact .refl
  · exact .refl

/-! ### The Apply Unit -/

theorem apply_moves (s : State) (x : ApplyUnit) : Moves a s (s.withApply x) := (Move.apply x).run

theorem breakBundle_moves (s : State) : Moves a s (breakBundle s) := by
  unfold breakBundle
  split
  · exact (completeCommit_moves _ s).trans (abandonUnheardFragment_moves _)
  · exact .refl

theorem stagingStep_moves (f : Frame) (s : State) : Moves a s (stagingStep f s) := by
  unfold stagingStep
  split
  · exact .refl
  · split
    · exact .refl
    · dsimp only
      split
      · exact (apply_moves s _).trans (breakBundle_moves _)
      · exact apply_moves s _

/-- The CHANGED notices of a bundle are those of watched regions (R136). -/
theorem reportChanges_moves (sender : Station) (recs : List WriteRecord) (s : State) :
    Moves a s (reportChanges sender recs s) := by
  unfold reportChanges
  have watched : ∀ r ∈ (regionsTouched recs).filter (flag s.port.watch), flag s.port.watch r = true :=
    fun r hr => (List.mem_filter.1 hr).2
  generalize (regionsTouched recs).filter (flag s.port.watch) = l at watched
  induction l generalizing s with
  | nil => exact .refl
  | cons r l ih =>
    have first : ∀ {b : Allowed}, Moves b s (postChanged r sender s) := postChanged_moves sender (watched r (by simp))
    refine first.trans (ih _ fun r' hr' => ?_)
    rw [Moves.watch_kept (a := ⟨False, False, False⟩) first id]
    exact watched r' (List.mem_cons_of_mem _ hr')

theorem commitPoint_moves {sender : Station} {recs : List WriteRecord} {s t : State}
    (h : commitPoint sender recs s = some t) : Moves a s t := by
  unfold commitPoint at h
  split at h
  · split at h
    · obtain rfl := Option.some.inj h
      have written : ∀ (u : State) (r : WriteRecord), Moves a u (writeRecord u r) := fun u r => writeCell_moves _ _ _ _ u
      refine .trans (foldl_moves written recs s) (.trans ?_ (mendAfterWrite_moves recs _))
      split
      · exact completeCommit_moves _ _
      · exact reportChanges_moves sender recs _
    · cases h
  · obtain rfl := Option.some.inj h
    split
    · exact completeCommit_moves _ s
    · exact .refl

theorem applyWrite_moves {sender : Station} {w : WriteBody} {s t : State} (h : applyWrite sender w s = some t) :
    Moves a s t := by
  unfold applyWrite at h
  dsimp only at h
  split at h
  · cases h
  · split at h
    · exact (apply_moves s _).trans (commitPoint_moves h)
    · obtain rfl := Option.some.inj h
      exact apply_moves s _

theorem applySignal_moves (sender : Station) (target : Option Station) (bytes : List Byte) (s : State) :
    Moves a s (applySignal sender target bytes s) := by
  unfold applySignal
  split
  · exact postNotice_moves rfl s
  · exact .refl

theorem reportForeign_moves (x : Station) (s : State) : Moves a s (reportForeign x s) := by
  unfold reportForeign
  split
  · exact (apply_moves s _).trans (postNotice_moves rfl _)
  · exact .refl

theorem handleDamaged_moves (x : Station) (q : Seq) (s : State) :
    Moves a s (handleDamagedKnown x q s) ∧ Moves a s (handleDamagedUnknown s) := by
  unfold handleDamagedKnown handleDamagedUnknown
  split
  · exact ⟨apply_moves s _, apply_moves s _⟩
  · exact ⟨.refl, .refl⟩

end Sys2Proof.Machine
end

section
/-! The moves that the operations on the replicated tables, the transmissions and the requests are made of, and the moves of
every command. -/

namespace Sys2Proof.Machine

open Sys2Proof.Safety

variable {a : Allowed}

/-! ### Departure -/

theorem departNotices_moves (r : DepartReason) (s : State) : Moves a s (departNotices r s) :=
  (completeAll_moves _ _ s).trans (postNotice_moves rfl _)

/-- The group state given up, the notices of the departure having been posted (R93, R94). -/
def giveUpGroup (r : DepartReason) (u : State) : State :=
  (((((((u.withCells (u.cells.map departCell)).withApply { doubt := .clear, foreign := 0, staging := none }).withLocks
    (Vector.replicate 16 freeRegion)).withMship (departMembership r u.mship)).withSponsor
    { joiners := [], cursor := 0 }).withBundle { draft := [], outgoing := none }).withMend
    { cells := [], current := none }).withTx (departTransmit (rejoins r u.mship) u.tx)

theorem depart_eq_giveUpGroup (r : DepartReason) (s : State) : depart r s = giveUpGroup r (departNotices r s) := by
  unfold depart giveUpGroup
  dsimp only [State.withCells, State.withApply, State.withLocks, State.withMship, State.withSponsor, State.withBundle,
    State.withMend, State.withTx]

theorem depart_moves (may : a.tables) (r : DepartReason) (s : State) : Moves a s (depart r s) := by
  rw [depart_eq_giveUpGroup]
  refine (departNotices_moves r s).trans ?_
  generalize departNotices r s = u
  refine .tail (.tail (.tail (.tail (.tail (.tail (.tail (.single (.cells _)) (.apply _)) (.locks _ may))
    (.mship _ may)) (.sponsor _ may fun _ => ?cursor)) (.bundle _ fun _ => ?bundle)) (.mend _ fun _ => ?mend))
    (.tx _ (fun _ => ?service) (fun _ => .inr may) fun n _ => .inl ?own)
  case cursor => exact ⟨Nat.zero_le 33, fun _ => rfl⟩
  case bundle => exact ⟨⟨Nat.zero_le 32, List.nodup_nil⟩, by simp⟩
  case mend => exact ⟨List.nodup_nil, by simp⟩
  case service => exact ⟨Nat.zero_le 8, List.nodup_nil, by simp [departTransmit]⟩
  case own => simp [SlotOwn, departTransmit]

/-! ### The Lock Table -/

theorem locks_moves (may : a.tables) (s : State) (x : Vector RegionEntry 16) : Moves a s (s.withLocks x) :=
  (Move.locks x may).run

theorem completeGrants_moves (before : Vector RegionEntry 16) (s : State) : Moves a s (completeGrants before s) :=
  foldl_moves (fun s r => completeFor_moves .claim r .granted s) _ s

theorem applyClaim_moves (may : a.tables) (sender : Station) (r : Region) (s : State) :
    Moves a s (applyClaim sender r s) := by
  unfold applyClaim
  split
  · dsimp only
    split
    · exact (locks_moves may s _).trans (completeFor_moves _ _ _ _)
    · exact locks_moves may s _
  · exact .refl

theorem releaseLocks_moves (may : a.tables) (x : Station) (s : State) : Moves a s (releaseLocks x s) :=
  (locks_moves may s _).trans (completeGrants_moves _ _)

theorem completeYield_moves (ticket : Option TicketNo) (r : Region) (held : Bool) (s : State) :
    Moves a s (completeYield ticket r held s) := by
  unfold completeYield
  split
  · exact .refl
  · split
    · exact .refl
    · split_ifs
      · exact complete_moves _ _ s
      · exact (completeFor_moves _ _ _ s).trans (complete_moves _ _ _)
      · exact complete_moves _ _ s

theorem applyOwnYield_moves (may : a.tables) (ticket : Option TicketNo) (r : Region) (s : State) :
    Moves a s (applyOwnYield ticket r s) := (locks_moves may s _).trans (completeYield_moves _ _ _ _)

theorem lockEffect_moves (may : a.tables) (f : Frame) (s : State) : Moves a s (lockEffect f s) := by
  unfold lockEffect
  cases f.body with
  | claim r => exact applyClaim_moves may _ r s
  | yield r =>
    dsimp only
    split
    · exact .refl
    · exact (locks_moves may s _).trans (completeGrants_moves _ _)
  | leave =>
    dsimp only
    split
    · exact releaseLocks_moves may _ s
    · exact .refl
  | drop t _ =>
    dsimp only
    split
    · exact releaseLocks_moves may t s
    · exact .refl
  | join _ =>
    dsimp only
    split
    · exact releaseLocks_moves may _ s
    · exact .refl
  | _ => exact .refl

/-! ### The Membership Table and the sponsor list -/

theorem mship_moves (may : a.tables) (s : State) (x : Membership) : Moves a s (s.withMship x) := (Move.mship x may).run

theorem changeTable_moves (may : a.tables) (t : Vector MemberEntry 16) (s : State) : Moves a s (changeTable t s) :=
  (mship_moves may s _).trans (apply_moves _ _)

theorem recordSeq_moves (may : a.tables) (x : Station) (q : Seq) (s : State) : Moves a s (recordSeq x q s) := by
  unfold recordSeq
  split
  · exact mship_moves may s _
  · exact .refl

theorem sponsorAppend_moves (may : a.tables) (xs : List Station) (s : State) : Moves a s (sponsorAppend xs s) :=
  (Move.sponsor { s.sponsor with joiners := s.sponsor.joiners ++ xs } may fun law =>
    ⟨law.1, fun none_left => law.2 (List.append_eq_nil_iff.1 none_left).1⟩).run

theorem sponsorForget_moves (may : a.tables) (x : Station) (s : State) : Moves a s (sponsorForget x s) := by
  unfold sponsorForget
  split
  · exact (Move.sponsor _ may fun _ => ⟨Nat.zero_le 33, fun _ => rfl⟩).run
  · rename_i other
    refine (Move.sponsor { s.sponsor with joiners := s.sponsor.joiners.filter (· != x) } may fun law =>
      ⟨law.1, fun none_left => law.2 ?_⟩).run
    cases e : s.sponsor.joiners with
    | nil => rfl
    | cons y ys =>
      have stays : y ≠ x := by
        rintro rfl
        exact other (by rw [e, List.head?_cons])
      simp [e, stays] at none_left

theorem sponsorEmpty_moves (may : a.tables) (s : State) : Moves a s (s.withSponsor { joiners := [], cursor := 0 }) :=
  (Move.sponsor _ may fun _ => ⟨Nat.zero_le 33, fun _ => rfl⟩).run

theorem reassign_moves (may : a.tables) (y : Station) (s : State) : Moves a s (reassign y s) := by
  have emptied : Moves a s (if y = self s then s.withSponsor { joiners := [], cursor := 0 } else s) := by
    split
    · exact sponsorEmpty_moves may s
    · exact .refl
  refine emptied.trans ?_
  unfold reassign
  dsimp only
  generalize (if y = self s then s.withSponsor { joiners := [], cursor := 0 } else s) = u
  split
  · split
    · exact (changeTable_moves may _ u).trans (sponsorAppend_moves may _ _)
    · exact changeTable_moves may _ u
  · exact changeTable_moves may _ u

theorem afterRemoval_moves (may : a.tables) (x : Station) (wasMember : Bool) (reason : OutReason) (s : State) :
    Moves a s (afterRemoval x wasMember reason s) := by
  unfold afterRemoval
  split
  · exact depart_moves may _ s
  · refine .trans ?_ (postNotice_moves rfl _)
    split
    · exact (reassign_moves may x s).trans (mendPeerLost_moves x _)
    · exact .refl

theorem expel_moves (may : a.tables) (x : Station) (reason : OutReason) (s : State) : Moves a s (expel x reason s) := by
  refine .trans ?_ (afterRemoval_moves may x _ reason _)
  refine .trans (.trans ?_ (withdrawDrops_moves x _)) (sponsorForget_moves may x _)
  exact .trans (changeTable_moves may _ s) (setSilence_moves x none _)

theorem applyDrop_moves (may : a.tables) (sender target : Station) (reason : DropReason) (s : State) :
    Moves a s (applyDrop sender target reason s) := by
  unfold applyDrop
  split_ifs
  · exact depart_moves may _ s
  · exact expel_moves may target _ s
  · exact .refl
  · exact .refl

theorem applyLeave_moves (may : a.tables) (sender : Station) (s : State) : Moves a s (applyLeave sender s) := by
  unfold applyLeave
  split_ifs
  · exact (changeTable_moves may _ s).trans (reassign_moves may _ _)
  · exact expel_moves may sender _ s
  · exact .refl

theorem startSilence_moves (x : Station) (s : State) : Moves a s (startSilence x s) := by
  unfold startSilence
  split
  · exact setSilence_moves x _ s
  · exact .refl

theorem admitJoiner_moves (may : a.tables) (x : Station) (q : Seq) (s : State) : Moves a s (admitJoiner x q s) := by
  unfold admitJoiner
  split
  · refine .trans ?_ (startSilence_moves x _)
    split
    · exact (changeTable_moves may _ s).trans (sponsorAppend_moves may _ _)
    · exact changeTable_moves may _ s
  · exact .refl

theorem applyJoin_moves (may : a.tables) (x : Station) (q : Seq) (rejoin : Bool) (s : State) :
    Moves a s (applyJoin x q rejoin s) := by
  have first : Moves a s (withdrawDrops x (forgetStranger x s)) := (apply_moves s _).trans (withdrawDrops_moves x _)
  refine first.trans ?_
  unfold applyJoin
  dsimp only
  generalize withdrawDrops x (forgetStranger x s) = u
  split
  · exact admitJoiner_moves may x q u
  · refine .trans ?_ (afterRemoval_moves may x true _ _)
    exact ((setSilence_moves x none u).trans (changeTable_moves may _ _)).trans (admitJoiner_moves may x q _)
  · split
    · exact (Move.cursor 0 fun _ => ⟨Nat.zero_le 33, fun _ => rfl⟩).run
    · exact .refl

theorem damagedCells_nodup (cells : Vector CellRec 256) : (damagedCells cells).Nodup := (List.nodup_finRange 256).filter _

/-- The live JOIN ticket completed, or without one MEMBER_IN posted with this station's own number (R85, R112). -/
def completeJoin (o : Completion) (s : State) : State :=
  match liveKind s.port .join with
  | some k => complete k o s
  | none => postNotice (.memberIn (self s)) s

theorem completeJoin_moves (o : Completion) (s : State) : Moves a s (completeJoin o s) := by
  unfold completeJoin
  split
  · exact complete_moves _ o s
  · exact postNotice_moves rfl s

theorem endOwnFill_moves (may : a.tables) (s : State) : Moves a s (endOwnFill s) := by
  have table := (mship_moves may s { s.mship with state := .member }).trans
    (changeTable_moves may (makeMember (self s) s.mship.table) (setStation .member s))
  have started : Moves a s (startAllSilence (clearMarks
      (changeTable (makeMember (self s) (setStation .member s).mship.table) (setStation .member s)))) :=
    (table.tail (.cells _)).trans (timers_moves _ _ rfl rfl)
  refine .trans (.trans (started.tail (.mend _ fun _ => ?_)) (completeJoin_moves .joined _)) (beginMend_moves _)
  exact ⟨damagedCells_nodup _, fun busy => absurd rfl busy⟩

theorem endPeerFill_moves (may : a.tables) (x : Station) (s : State) : Moves a s (endPeerFill x s) :=
  ((changeTable_moves may _ s).trans (sponsorForget_moves may x _)).trans (postNotice_moves rfl _)

theorem applySnapCells_moves (may : a.tables) (sender target : Station) (g : Group) (recs : Vector SnapRecord 8)
    (s : State) : Moves a s (applySnapCells sender target g recs s) := by
  unfold applySnapCells
  dsimp only
  split_ifs
  · exact (applySnapRecords_moves g recs s).trans (endOwnFill_moves may _)
  · exact applySnapRecords_moves g recs s
  · exact .refl
  · exact endPeerFill_moves may target s
  · exact .refl

theorem enterFilling_moves (may : a.tables) (sender : Station) (q : Seq) (im : Images) (s : State) :
    Moves a s (enterFilling sender q im s) := by
  have stopped := ((mship_moves may s { s.mship with state := .filling }).trans (stopSilence_moves _)).tail
    (.cells ((stopSilence (setStation .filling s)).cells.map fun r => { r with fresh := false }))
  have tables := (stopped.trans (mship_moves may _ { (stopSilence (setStation .filling s)).mship with
    table := im.members.set sender.val { im.members[sender] with lastSeq := q } })).trans (locks_moves may _ im.locks)
  exact (tables.trans (apply_moves _ { doubt := .clear, foreign := 0, staging := none })).trans (sponsorEmpty_moves may _)

/-! ### The Apply Unit -/

theorem effect_moves (may : a.tables) {f : Frame} {ticket : Option TicketNo} {s t : State}
    (h : effect f ticket s = some t) : Moves a s t := by
  unfold effect at h
  cases e : f.body with
  | write w =>
    rw [e] at h
    exact applyWrite_moves h
  | presence => rw [e] at h; obtain rfl := Option.some.inj h; exact .refl
  | claim => rw [e] at h; obtain rfl := Option.some.inj h; exact .refl
  | join rejoin =>
    rw [e] at h
    obtain rfl := Option.some.inj h
    split
    · exact .refl
    · exact applyJoin_moves may _ _ _ s
  | leave => rw [e] at h; obtain rfl := Option.some.inj h; exact applyLeave_moves may _ s
  | drop => rw [e] at h; obtain rfl := Option.some.inj h; exact applyDrop_moves may _ _ _ s
  | yield r =>
    rw [e] at h
    obtain rfl := Option.some.inj h
    split
    · exact applyOwnYield_moves may _ _ s
    · exact .refl
  | snapState t im =>
    rw [e] at h
    obtain rfl := Option.some.inj h
    unfold applySnapState
    split
    · exact enterFilling_moves may _ _ _ s
    · exact .refl
  | snapCells => rw [e] at h; obtain rfl := Option.some.inj h; exact applySnapCells_moves may _ _ _ _ s
  | mend => rw [e] at h; obtain rfl := Option.some.inj h; exact applyMend_moves _ _ _ s
  | mendReply => rw [e] at h; obtain rfl := Option.some.inj h; exact applyMendReply_moves _ _ _ _ s
  | signal => rw [e] at h; obtain rfl := Option.some.inj h; exact applySignal_moves _ _ _ s

theorem takeFrame_moves (may : a.tables) {f : Frame} {ticket : Option TicketNo} {s t : State}
    (h : takeFrame f ticket s = some t) : Moves a s t :=
  (((recordSeq_moves may _ _ s).trans (lockEffect_moves may f _)).trans (stagingStep_moves f _)).trans (effect_moves may h)

theorem setDoubt_moves (d : Doubt) (s : State) : Moves a s (setDoubt d s) := apply_moves s _

theorem handleAtHolder_moves (may : a.tables) (f : Frame) (s : State) : Moves a s (handleAtHolder f s).1 := by
  unfold handleAtHolder
  split
  · exact reportForeign_moves _ s
  · split
    · exact depart_moves may _ s
    · exact depart_moves may _ s
    · dsimp only
      refine .trans (setDoubt_moves .clear s) ?_
      split
      · exact depart_moves may _ _
      · exact signOfLife_moves _ _
      · split
        · rename_i t taken
          exact (signOfLife_moves _ _).trans (takeFrame_moves may taken)
        · exact depart_moves may _ _

theorem handlePeer_moves (may : a.tables) (f : Frame) (s : State) : Moves a s (handlePeer f s).1 := by
  unfold handlePeer handleAwaiting
  split
  · exact .refl
  · exact .refl
  · exact .refl
  · split
    · exact .refl
    · split
      · split
        · exact enterFilling_moves may _ _ _ s
        · exact .refl
      · exact .refl
  · exact handleAtHolder_moves may f s
  · exact handleAtHolder_moves may f s
  · exact handleAtHolder_moves may f s

theorem handleOwn_moves (may : a.tables) (f : Frame) (ticket : Option TicketNo) (first : Bool) (s : State) :
    Moves a s (handleOwn f ticket first s) := by
  have free : Moves a s (if first then (takeFrame f ticket (setDoubt .clear s)).getD (depart .outOfStep (setDoubt .clear s))
      else setDoubt .clear s) := by
    refine (setDoubt_moves .clear s).trans ?_
    split
    · cases taken : takeFrame f ticket (setDoubt .clear s) with
      | none => exact depart_moves may _ _
      | some t => exact takeFrame_moves may taken
    · exact .refl
  unfold handleOwn
  split
  · split
    · exact depart_moves may _ s
    · exact free
    · exact free
  · exact .refl

/-! ### Transmissions -/

/-- The cells of a group verified at a build (R7). -/
def verifyGroup (g : Group) (s : State) : State := (List.finRange 8).foldl (fun s i => verifyForBuild (groupCell g i) s) s

theorem readContent_snapCells (t : Station) (g : Group) (rs : Vector SnapRecord 8) (s : State) :
    readContent (.snapCells t g rs) s =
      (.snapCells t g (Vector.ofFn fun i : Fin 8 => snapRecordOf (groupCell g i) (verifyGroup g s)),
        beginMend (verifyGroup g s)) := rfl

theorem verifyGroup_moves (g : Group) (s : State) : Moves a s (verifyGroup g s) :=
  foldl_moves (fun s i => verifyForBuild_moves (groupCell g i) s) _ s

theorem readContent_moves (b : Body) (s : State) : Moves a s (readContent b s).2 := by
  cases b with
  | snapCells t g rs =>
    rw [readContent_snapCells]
    dsimp only
    exact (verifyGroup_moves g s).trans (beginMend_moves (verifyGroup g s))
  | mendReply t c answer => exact (verifyForBuild_moves c s).trans (beginMend_moves _)
  | _ => exact .refl

@[simp] theorem verifyForBuild_tx (c : CellIx) (s : State) : (verifyForBuild c s).tx = s.tx := by
  unfold verifyForBuild damageCell listForMend
  cases s.cells[c].status <;> dsimp only
  split_ifs <;> rfl

@[simp] theorem verifyGroup_tx (g : Group) (s : State) : (verifyGroup g s).tx = s.tx := by
  unfold verifyGroup
  generalize List.finRange 8 = l
  induction l generalizing s with
  | nil => rfl
  | cons i l ih => rw [List.foldl_cons, ih, verifyForBuild_tx]

theorem beginMend_slot (s : State) : (beginMend s).tx.slot = s.tx.slot := by
  obtain ⟨p, m, x, h⟩ := beginMend_changes s
  rw [h, State.withTx_tx]

/-- A build reads content, not the slot. -/
theorem readContent_slot (b : Body) (s : State) : (readContent b s).2.tx.slot = s.tx.slot := by
  cases b with
  | snapCells t g rs => rw [readContent_snapCells, beginMend_slot, verifyGroup_tx]
  | mendReply t c answer => exact (beginMend_slot _).trans (congrArg (·.slot) (verifyForBuild_tx c s))
  | _ => rfl

/-- A build reads content, not the kind: a LEAVE is built of a LEAVE alone. -/
theorem readContent_leave (b : Body) (s : State) : (readContent b s).1 = .leave ↔ b = .leave := by
  cases b <;> simp [readContent]

theorem busSending_moves (s : State) : Moves a s (busSending s) := (Move.bus _).run

/-- A frame built into the slot bears this station's number (R166). -/
theorem fillSlot_moves {s : State} {x : Transmit} {sl : Slot} (slot : x.slot = some sl)
    (own : sl.frame.head.sender = s.straps.number) (leave : LeaveQueued x → LeaveQueued s.tx)
    (h : ServiceLaw s.tx → ServiceLaw x) : Moves a s (s.withTx x) := by
  refine (Move.tx x h (fun q => .inl (leave q)) fun n _ => ?_).run
  by_cases e : n = s.straps.number
  · refine .inl fun sl' held => ?_
    obtain rfl : sl = sl' := Option.some.inj (slot.symm.trans held)
    rw [own, e]
  · exact .inr e

theorem ticketSending_moves (ticket : Option TicketNo) (s : State) :
    Moves a s (match ticket with
      | some k => advanceTicket k .sending s
      | none => s) := by
  split
  · exact advanceTicket_moves _ (by simp) s
  · exact .refl

theorem buildNew_moves {b : Body} (ticket : Option TicketNo) (gap : GapKind) (s : State) (other : b ≠ .leave) :
    Moves a s (buildNew b ticket gap s) := by
  refine (readContent_moves b s).trans ?_
  unfold buildNew
  have kind : (readContent b s).1 ≠ .leave := mt (readContent_leave b s).1 other
  generalize readContent b s = r at kind
  obtain ⟨body, u⟩ := r
  dsimp only at kind ⊢
  refine .trans ?_ (ticketSending_moves ticket _)
  refine fillSlot_moves rfl rfl (fun q => ?_) id
  obtain ⟨sl, held, leave⟩ | queued := q
  · obtain rfl := Option.some.inj held
    exact absurd leave kind
  · exact .inr queued

theorem buildAgain_moves {sl : Slot} {s : State} (held : s.tx.slot = some sl) : Moves a s (buildAgain sl s) := by
  unfold buildAgain
  split
  · exact setSlot_moves held rfl id
  · refine (readContent_moves sl.frame.body s).trans ?_
    have slot := readContent_slot sl.frame.body s
    have kind := (readContent_leave sl.frame.body s).1
    generalize readContent sl.frame.body s = r at slot kind
    obtain ⟨body, u⟩ := r
    exact setSlot_moves (slot.trans held) rfl kind

end Sys2Proof.Machine
end

section
/-! The moves of transmissions, settlements, the bus, the host's requests and the timers, and so of every command but a
reset. -/

namespace Sys2Proof.Machine

open Sys2Proof.Safety

variable {a : Allowed}

/-! ### Transmission starts -/

theorem cursorNext_moves {j : Station} {s : State} (h : snapshotWork s = some j) :
    Moves a s (s.withSponsor { s.sponsor with cursor := s.sponsor.cursor + 1 }) := by
  unfold snapshotWork at h
  split at h
  · rename_i more
    refine (Move.cursor _ fun _ => ⟨more, fun empty => ?_⟩).run
    rw [show s.sponsor.joiners = [] from empty] at h
    cases h
  · cases h

/-- The frame of a host send list entry is a LEAVE only of a LEAVE entry. -/
theorem hostBody_leave {f : SendFrame} {s : State} {b : Body} (h : hostBody f s = some b) (leave : b = .leave) :
    f = .leave := by
  subst leave
  cases f with
  | leave => rfl
  | commit =>
    obtain ⟨o, -, e⟩ := Option.map_eq_some_iff.1 h
    cases e
  | _ => cases h

/-- The kinds whose content a build does not read. -/
theorem hostBody_readContent {f : SendFrame} {s : State} {b : Body} (h : hostBody f s = some b) (u : State) :
    (readContent b u).2 = u := by
  cases f with
  | commit =>
    obtain ⟨o, -, rfl⟩ := Option.map_eq_some_iff.1 h
    rfl
  | _ =>
    obtain rfl := Option.some.inj h
    rfl

theorem buildHost_moves {e : SendEntry} {rest : List SendEntry} {b : Body} (gap : GapKind) {s : State}
    (head : s.tx.sendList = e :: rest) (body : hostBody e.frame s = some b) :
    Moves a s (buildNew b e.ticket gap
      (s.withTx { s.tx with sendList := s.tx.sendList.tail, lastSource := .hostList })) := by
  generalize hu : s.withTx { s.tx with sendList := s.tx.sendList.tail, lastSource := .hostList } = u
  have content := hostBody_readContent body u
  have kind := (readContent_leave b u).1
  unfold buildNew
  generalize readContent b u = r at content kind
  obtain ⟨b', u'⟩ := r
  dsimp only at content kind ⊢
  subst content hu
  refine .trans ?_ (ticketSending_moves e.ticket _)
  refine fillSlot_moves (s := s) rfl rfl (fun q => ?_) id
  obtain ⟨sl, held, leave⟩ | ⟨e', he', leave⟩ := q
  · obtain rfl := Option.some.inj held
    exact .inr ⟨e, by rw [head]; exact List.mem_cons_self, hostBody_leave body (kind leave)⟩
  · exact .inr ⟨e', List.mem_of_mem_tail he', leave⟩

theorem hostTail_moves (s : State) : Moves a s (s.withTx { s.tx with sendList := s.tx.sendList.tail }) := by
  refine tx_moves id (fun q => .inl ?_) fun n own => .inl own
  exact q.imp id fun ⟨e, he, leave⟩ => ⟨e, List.mem_of_mem_tail he, leave⟩

/-- What the Transmit Selector offers, as it stands in its lists (R165). -/
def Offered (o : Offer) (s : State) : Prop :=
  match o with
  | .again sl => s.tx.slot = some sl
  | .host e => ∃ rest, s.tx.sendList = e :: rest
  | .snapshot j => snapshotWork s = some j
  | .drop _ | .fragment _ | .reply _ | .mend _ | .presence => True

theorem offered_of_serviceOffer {o : Offer} {s : State} (h : serviceOffer s.tx = some o) : Offered o s := by
  unfold serviceOffer at h
  split at h
  · obtain rfl := Option.some.inj h
    exact trivial
  · obtain rfl := Option.some.inj h
    exact trivial
  · obtain rfl := Option.some.inj h
    exact trivial
  · obtain rfl := Option.some.inj h
    exact trivial
  · cases h

theorem offered_of_sharedOffer {o : Offer} {s : State} (h : sharedOffer s = some o) : Offered o s := by
  unfold sharedOffer at h
  split at h
  · rename_i work _
    obtain rfl := Option.some.inj h
    exact work
  · rename_i list
    obtain rfl := Option.some.inj h
    exact ⟨_, list⟩
  · rename_i work list
    split at h
    · obtain rfl := Option.some.inj h
      exact work
    · obtain rfl := Option.some.inj h
      exact ⟨_, list⟩
  · cases h

theorem offered_of_offer {o : Offer} {s : State} (h : offer s = some o) : Offered o s := by
  unfold offer at h
  split at h
  · rename_i held
    obtain rfl := Option.some.inj h
    exact held
  · split at h
    · obtain rfl := Option.some.inj h
      exact trivial
    · split at h
      · obtain rfl := Option.some.inj h
        exact trivial
      · cases service : serviceOffer s.tx with
        | some o' =>
          rw [service] at h
          obtain rfl := Option.some.inj h
          exact offered_of_serviceOffer service
        | none =>
          rw [service] at h
          exact offered_of_sharedOffer h

theorem snapshotBody_ne_leave (j : Station) (s : State) : snapshotBody j s ≠ .leave := by
  unfold snapshotBody
  split <;> simp

theorem buildOffer_host_some {e : SendEntry} {s : State} {b : Body} (h : hostBody e.frame s = some b) :
    buildOffer (.host e) s = buildNew b e.ticket .turn
      (s.withTx { s.tx with sendList := s.tx.sendList.tail, lastSource := .hostList }) := by
  simp only [buildOffer, h, offerGap]

theorem buildOffer_host_none {e : SendEntry} {s : State} (h : hostBody e.frame s = none) :
    buildOffer (.host e) s = s.withTx { s.tx with sendList := s.tx.sendList.tail } := by
  simp only [buildOffer, h]

theorem buildOffer_moves {o : Offer} {s : State} (h : Offered o s) : Moves a s (buildOffer o s) := by
  cases o with
  | again sl => exact buildAgain_moves h
  | drop d =>
    show Moves a s (buildNew (.drop d.target d.reason) none _ (s.withTx { s.tx with drops := s.tx.drops.erase d }))
    refine .trans ?_ (buildNew_moves none _ _ nofun)
    exact service_moves s _ rfl rfl fun law => law.sublist List.erase_sublist (List.Sublist.refl _)
  | fragment b => exact buildNew_moves (b := fragmentBody b b.next) none _ s nofun
  | reply r =>
    show Moves a s (buildNew (.mendReply r.requester r.cell .noCopy) none _
      (s.withTx { s.tx with replies := s.tx.replies.tail }))
    refine .trans ?_ (buildNew_moves none _ _ nofun)
    exact service_moves s _ rfl rfl fun law => law.sublist (List.Sublist.refl _) (List.tail_sublist _)
  | mend m => exact (mendSlot_moves none s).trans (buildNew_moves (b := .mend m.responder m.cell) none .turn _ nofun)
  | presence =>
    exact (service_moves s { s.tx with presence := false } rfl rfl id).trans
      (buildNew_moves (b := .presence) none .turn _ nofun)
  | snapshot j =>
    refine .trans ?_ (buildNew_moves none _ _ (snapshotBody_ne_leave j s))
    exact (service_moves s { s.tx with lastSource := .snapshot } rfl rfl id).trans (cursorNext_moves (j := j) h)
  | host e =>
    obtain ⟨rest, head⟩ := h
    cases body : hostBody e.frame s with
    | some b =>
      rw [buildOffer_host_some body]
      exact buildHost_moves _ head body
    | none =>
      rw [buildOffer_host_none body]
      exact hostTail_moves s

theorem startable_offer {o : Offer} {s : State} (h : startable s = some o) : offer s = some o := by
  unfold startable at h
  split at h
  · exact (Option.filter_eq_some_iff.1 h).1
  · cases h

theorem startTransmission_moves (s : State) : Moves a s (startTransmission s) := by
  unfold startTransmission
  split
  · rename_i o start
    have built := buildOffer_moves (a := a) (offered_of_offer (startable_offer start))
    dsimp only
    split
    · exact (built.trans (busSending_moves _)).trans (restartPresence_moves _)
    · exact built
  · exact .refl

/-! ### Settlement -/

theorem queueSettlementDrop_moves (s : State) (x : Station) : Moves a s (queueSettlementDrop s x) := by
  unfold queueSettlementDrop
  split
  · exact .refl
  · refine service_moves s _ rfl rfl fun ⟨few, nodup, reason⟩ => ⟨few, ?_, fun d hd => ?_⟩
    · rw [List.map_append, List.nodup_append]
      refine ⟨nodup.sublist (List.filter_sublist.map _), List.nodup_singleton _, fun t ht u hu e => ?_⟩
      obtain ⟨d, hd, rfl⟩ := List.mem_map.1 ht
      have other := (List.mem_filter.1 hd).2
      simp only [List.map_cons, List.map_nil, List.mem_singleton] at hu
      simp [e, hu] at other
    · obtain before | new := List.mem_append.1 hd
      · exact reason d (List.mem_filter.1 before).1
      · obtain rfl := List.mem_singleton.1 new
        exact fun _ => rfl

theorem settleEffects_moves (sl : Slot) (map : Flags16) (s : State) : Moves a s (settleEffects sl map s) := by
  unfold settleEffects
  cases sl.frame.body with
  | claim r =>
    dsimp only
    split
    · unfold awaitGrant
      split
      · exact advanceTicket_moves _ (by simp) s
      · exact .refl
    · exact .refl
  | write w =>
    dsimp only
    split
    · rename_i b out
      split
      · refine bundle_moves fun law => ⟨law.1, fun o e => ?_⟩
        obtain rfl := Option.some.inj e
        exact law.2 b out
      · exact .refl
    · exact .refl
  | signal t bytes =>
    dsimp only
    split
    · exact complete_moves _ _ s
    · exact .refl
  | leave =>
    dsimp only
    split
    · exact complete_moves _ _ s
    · exact .refl
  | mend t c =>
    dsimp only
    split
    · exact mend_moves fun law => ⟨law.1, fun busy => law.2 fun idle => busy (by simp [idle])⟩
    · exact .refl
  | _ => exact .refl

theorem settle_moves (may : a.tables) (sl : Slot) (missing map : Flags16) (s : State) :
    Moves a s (settle sl missing map s) := by
  have effects := (setSlot_none_moves (a := a) s).trans (settleEffects_moves sl map _)
  unfold settle
  dsimp only
  split
  · exact effects.trans (depart_moves may _ _)
  · split
    · exact effects
    · exact effects.trans (foldl_moves queueSettlementDrop_moves _ _)

/-- The station alone in its new group, its JOIN ticket not yet completed (R85). -/
def foundedState (q : Seq) (s : State) : State :=
  (((((s.withCells (s.cells.map foundCell)).withApply { doubt := .clear, foreign := 0, staging := none }).withLocks
    (Vector.replicate 16 freeRegion)).withMship { s.mship with
      state := .member
      table := (Vector.replicate 16 absentEntry).set (self s).val { absentEntry with state := .member, lastSeq := q }
      silence := Vector.replicate 16 none
      presence := some Config.presenceInterval }).withSponsor { joiners := [], cursor := 0 }).withMend
    { cells := [], current := none }

theorem found_eq (q : Seq) (s : State) : found q s = completeJoin .founded (foundedState q s) := by
  unfold found completeJoin foundedState self
  dsimp only [State.withCells, State.withApply, State.withLocks, State.withMship, State.withSponsor, State.withMend] <;> rfl

theorem found_moves (may : a.tables) (q : Seq) (s : State) : Moves a s (found q s) := by
  rw [found_eq]
  refine .trans ?_ (completeJoin_moves .founded (foundedState q s))
  refine .trans (.trans ?_ (sponsor_moves may fun _ => ⟨Nat.zero_le 33, fun _ => rfl⟩))
    (mend_moves fun _ => ⟨List.nodup_nil, fun busy => absurd rfl busy⟩)
  exact .tail (.tail (.tail (.single (.cells _)) (.apply _)) (.locks _ may)) (.mship _ may)

theorem repeatDue_moves {sl : Slot} {s : State} (held : s.tx.slot = some sl) : Moves a s (repeatDue sl s) :=
  setSlot_moves held rfl id

theorem judge_moves (may : a.tables) (map : Flags16) (s : State) : Moves a s (judge map s) := by
  have left := setSlot_none_moves (a := a) s
  have required : ∀ sl, s.tx.slot = some sl → Moves a s (judgeRequired sl map s) := fun sl held => by
    unfold judgeRequired
    dsimp only
    split_ifs
    · exact settle_moves may sl 0 map s
    · exact repeatDue_moves held
    · exact settle_moves may sl _ map s
    · exact left.trans (depart_moves may _ _)
  unfold judge
  split
  · exact .refl
  · rename_i sl held
    split
    · unfold judgeJoin
      split_ifs
      · refine .trans (.trans left (mship_moves may _ { s.mship with state := .awaitState })) ?_
        unfold joinAcked
        dsimp only
        split
        · exact (startPresence_moves _).trans (advanceTicket_moves _ (by simp) _)
        · exact startPresence_moves _
      · exact left.trans (found_moves may _ _)
      · exact repeatDue_moves held
    · unfold judgeAwaiting
      split_ifs
      · exact left
      · exact left.trans (depart_moves may _ _)
      · exact repeatDue_moves held
    all_goals exact required sl held

theorem disposeAtLineFault_moves (may : a.tables) (s : State) : Moves a s (disposeAtLineFault s) := by
  unfold disposeAtLineFault
  split
  · exact .refl
  · split
    · exact (setSlot_none_moves s).trans (depart_moves may _ _)
    · exact .refl

/-! ### The bus -/

theorem bus_moves (s : State) (x : BusInterface) : Moves a s (s.withBus x) := (Move.bus x).run

theorem recordHeard_moves (mark : Bool) (h : Heard) (s : State) : Moves a s (recordHeard mark h s) := by
  unfold recordHeard
  split <;> exact bus_moves s _

theorem setReference_moves (may : a.reference) (x : Option Station) (s : State) : Moves a s (setReference x s) :=
  access_moves id (.inr may)

theorem handFrame_moves (tables : a.tables) (reference : a.reference) (cls : FrameClass) (s : State) :
    Moves a s (handFrame cls s).1 := by
  cases cls with
  | good f =>
    exact ((setReference_moves reference _ s).trans (meetListening_moves _)).trans (handlePeer_moves tables f _)
  | damagedKnown x again q => exact (setReference_moves reference none s).trans (handleDamaged_moves x q _).1
  | damagedUnknown => exact (setReference_moves reference none s).trans (handleDamaged_moves 0 0 _).2

theorem heardEnd_moves (tables : a.tables) (reference : a.reference) (mark : Bool) (h : Heard) (cls : FrameClass)
    (s : State) : Moves a s (heardEnd mark h cls s) :=
  ((recordHeard_moves mark h s).trans (handFrame_moves tables reference cls _)).trans (bus_moves _ _)

@[simp] theorem meetListening_tx (s : State) : (meetListening s).tx = s.tx := by
  unfold meetListening
  split <;> rfl

@[simp] theorem recordHeard_tx (mark : Bool) (h : Heard) (s : State) : (recordHeard mark h s).tx = s.tx := by
  obtain ⟨b, hb⟩ := recordHeard_bus mark h s
  rw [hb, State.withBus_tx]

theorem ownEnd_moves (tables : a.tables) (reference : a.reference) {sl : Slot} {s : State} (held : s.tx.slot = some sl) :
    Moves a s (ownEnd sl s) := by
  refine .trans (.trans ?_ (handleOwn_moves tables _ _ _ _)) (bus_moves _ _)
  refine .trans ?_ (setSlot_moves (old := sl) (by rw [meetListening_tx, State.withAccess_tx, recordHeard_tx, held]) rfl id)
  refine .trans (.trans ?_ (access_moves (fun _ => Nat.zero_le 8) (.inr reference))) (meetListening_moves _)
  exact recordHeard_moves true _ s

theorem carrierEnd_moves (tables : a.tables) (reference : a.reference) (f : Frame) (s : State) :
    Moves a s (carrierEnd f s) := by
  unfold carrierEnd
  split
  · split
    · rename_i held
      split
      · exact ownEnd_moves tables reference held
      · exact .refl
    · exact .refl
  · exact heardEnd_moves tables reference _ _ _ s
  · exact heardEnd_moves tables reference _ _ _ s
  · exact .refl

theorem heardBytesEnd_moves (tables : a.tables) (reference : a.reference) (h : Heard) (s : State) :
    Moves a s (heardBytesEnd h s) := by
  unfold heardBytesEnd
  split
  · exact heardEnd_moves tables reference _ _ _ s
  · exact heardEnd_moves tables reference _ _ _ s
  · exact .refl
  · exact .refl

theorem dropOrphanFragment_moves (s : State) : Moves a s (dropOrphanFragment s) := by
  unfold dropOrphanFragment
  split
  · exact abandonUnheardFragment_moves s
  · exact .refl

theorem reportCollision_moves (reference : a.reference) (s : State) : Moves a s (reportCollision s) := by
  have counted : ∀ h : Option Nat, Moves a s (s.withAccess { s.access with
      reference := none, collisions := min Config.collisionLimit (s.access.collisions + 1), holdOff := h }) := fun h =>
    access_moves (fun _ => min_le_left _ _) (.inr reference)
  unfold reportCollision
  dsimp only
  split
  · exact (counted (some Config.holdOffSlots)).trans (postNotice_moves rfl _)
  · exact counted s.access.holdOff

theorem collide_moves (tables : a.tables) (reference : a.reference) (mark : Bool) (h : Heard) (s : State) :
    Moves a s (collide mark h s) := by
  unfold collide
  split
  · refine .trans ?_ (bus_moves _ _)
    refine .trans (.trans ?_ (dropOrphanFragment_moves _)) (reportCollision_moves reference _)
    exact (recordHeard_moves mark h s).trans (handFrame_moves tables reference _ _)
  · exact .refl

/-- A change of the gap count alone. -/
theorem gapCount_moves (n : Nat) (s : State) : Moves a s (s.withAccess { s.access with gapCount := n }) :=
  access_moves id (.inl rfl)

theorem endAckWindow_moves (may : a.tables) (map : Flags16) (s : State) : Moves a s (endAckWindow map s) := by
  unfold endAckWindow
  split
  · dsimp only
    generalize hu : (s.withBus { s.bus with state := .idle, ackMap := map, ackDrive := false, report := .heard }) = u
    have idle : Moves a s u := hu ▸ bus_moves s _
    have counted := idle.trans (gapCount_moves 0 u)
    generalize hv : u.withAccess { u.access with gapCount := 0 } = v at counted
    have driven : Moves a s (if s.bus.ackDrive then restartPresence v else v) := by
      split
      · exact counted.trans (restartPresence_moves v)
      · exact counted
    have seen : Moves a s (ackedPeers map (if s.bus.ackDrive then restartPresence v else v)) :=
      driven.trans (foldl_moves (fun s x => signOfLife_moves x s) _ _)
    generalize ackedPeers map (if s.bus.ackDrive then restartPresence v else v) = w at seen
    split
    · exact seen.trans (judge_moves may map w)
    · split
      · exact seen.trans (disposeAtLineFault_moves may w)
      · exact seen
    · exact seen
  · exact .refl

/-! ### The port's transactions -/

theorem setSdo_moves (bytes : List Byte) (s : State) : Moves a s (setSdo bytes s) := admin_moves s _ rfl rfl rfl rfl

theorem setPhase_moves (p : PortPhase) (s : State) : Moves a s (setPhase p s) := admin_moves s _ rfl rfl rfl rfl

theorem fetchPort_moves (extra : Nat) (s : State) : Moves a s (fetchPort extra s) := by
  unfold fetchPort
  dsimp only
  split
  · split
    · exact (setSdo_moves _ s).trans (setPhase_moves _ _)
    · exact setSdo_moves _ s
  · exact setSdo_moves _ s
  · exact setSdo_moves _ s

theorem takeRequest_moves (sdi : List Byte) (s : State) : Moves a s (takeRequest sdi s) := by
  unfold takeRequest
  split
  · split <;> exact admin_moves s _ rfl rfl rfl rfl
  · exact admin_moves s _ rfl rfl rfl rfl
  · exact admin_moves s _ rfl rfl rfl rfl

theorem requestPort_moves (sdi : List Byte) (s : State) : Moves a s (requestPort sdi s) := by
  unfold requestPort
  split
  · exact setSdo_moves _ s
  · split_ifs
    · exact setSdo_moves _ s
    · exact fetchPort_moves _ s
    · exact (setSdo_moves _ s).trans (takeRequest_moves _ _)

/-! ### The requests, code by code -/

theorem respond_moves (code : ResultCode) (body : List Byte) (s : State) : Moves a s (respond code body s) :=
  setPhase_moves _ s

theorem refuse_moves (code : ResultCode) (s : State) : Moves a s (refuse code s) := setPhase_moves _ s

theorem doStatus_moves (args : List Byte) (s : State) : Moves a s (doStatus args s) :=
  (admin_moves s { s.port with noticesDropped := false } rfl rfl rfl rfl).trans (respond_moves _ _ _)

theorem doConfigure_moves (may : a.tables) (args : List Byte) (s : State) : Moves a s (doConfigure args s) := by
  unfold doConfigure
  split
  · exact refuse_moves _ s
  · split
    · exact (mship_moves may s _).trans (respond_moves _ _ _)
    · exact refuse_moves _ s

theorem doReadCells_moves (args : List Byte) (s : State) : Moves a s (doReadCells args s) := by
  unfold doReadCells
  split
  · exact refuse_moves _ s
  · exact ((foldl_moves (fun s c => verifyForHost_moves c s) _ s).trans (beginMend_moves _)).trans (respond_moves _ _ _)

theorem doReadRegion_moves (args : List Byte) (s : State) : Moves a s (doReadRegion args s) := by
  unfold doReadRegion
  split
  · exact refuse_moves _ s
  · exact respond_moves _ _ s

theorem doTakeNotice_moves (args : List Byte) (s : State) : Moves a s (doTakeNotice args s) := by
  unfold doTakeNotice
  split
  · exact refuse_moves _ s
  · rename_i oldest
    exact (Move.port _ (.take _ _ oldest)).run.trans (respond_moves _ _ _)

theorem doSetWatch_moves (may : a.watch) (args : List Byte) (s : State) : Moves a s (doSetWatch args s) := by
  unfold doSetWatch
  split
  · exact refuse_moves _ s
  · exact (Move.port _ (.setWatch _ may)).run.trans (respond_moves _ _ _)

/-- The draft replaced by one within its law. -/
theorem answerDraft_moves {draft : List DraftEntry} {s : State}
    (h : s.bundle.draft.length ≤ 32 ∧ (s.bundle.draft.map (·.cell)).Nodup →
      draft.length ≤ 32 ∧ (draft.map (·.cell)).Nodup) : Moves a s (answerDraft draft s) :=
  (Move.bundle { s.bundle with draft := draft } fun law => ⟨h law.1, law.2⟩).run.trans (respond_moves _ _ _)

/-- A cell staged in its place leaves the cells of the draft as they are, one staged anew joins them (R58). -/
theorem stageInto_law {c : CellIx} {d : CellData} {draft : List DraftEntry}
    (room : (∃ e ∈ draft, e.cell = c) ∨ draft.length < 32)
    (law : draft.length ≤ 32 ∧ (draft.map (·.cell)).Nodup) :
    (stageInto c d draft).length ≤ 32 ∧ ((stageInto c d draft).map (·.cell)).Nodup := by
  by_cases staged : ∃ e ∈ draft, e.cell = c
  · have cells : (stageInto c d draft).map (·.cell) = draft.map (·.cell) := by
      rw [stageInto, if_pos ((draft_any_cell_iff c draft).2 staged), List.map_map]
      refine List.map_congr_left fun e _ => ?_
      dsimp only [Function.comp]
      split <;> rfl
    have length : (stageInto c d draft).length = draft.length := by
      simpa only [List.length_map] using congrArg List.length cells
    rw [cells, length]
    exact law
  · rw [stageInto_of_not_staged d staged, List.length_append, List.length_singleton, List.map_append, List.nodup_append]
    refine ⟨room.resolve_left staged, law.2, List.nodup_singleton _, fun x hx y hy e => staged ?_⟩
    obtain ⟨entry, he, rfl⟩ := List.mem_map.1 hx
    obtain rfl := List.mem_singleton.1 hy
    exact ⟨entry, he, e⟩

theorem doStageCell_moves (args : List Byte) (s : State) : Moves a s (doStageCell args s) := by
  unfold doStageCell
  split
  · exact refuse_moves _ s
  · split_ifs
    · exact refuse_moves _ s
    · exact refuse_moves _ s
    · exact refuse_moves _ s
    · rename_i room
      refine answerDraft_moves (stageInto_law ?_)
      rw [Bool.not_eq_true', Bool.not_eq_false, Bool.or_eq_true, draft_any_cell_iff, decide_eq_true_eq] at room
      exact room

theorem doUnstageCell_moves (args : List Byte) (s : State) : Moves a s (doUnstageCell args s) := by
  unfold doUnstageCell
  split
  · exact refuse_moves _ s
  · split
    · exact answerDraft_moves fun law =>
        ⟨(List.length_filter_le _ _).trans law.1, law.2.sublist (List.filter_sublist.map _)⟩
    · exact refuse_moves _ s

theorem doDiscardDraft_moves (args : List Byte) (s : State) : Moves a s (doDiscardDraft args s) :=
  (Move.bundle { s.bundle with draft := [] } fun law => ⟨⟨Nat.zero_le 32, List.nodup_nil⟩, law.2⟩).run.trans
    (respond_moves _ _ _)

/-- A deferred request is accepted with a ticket that is ready for issue, or refused. -/
theorem withTicket_moves {f : TicketNo → State → State} {s : State} (h : ∀ k, Ready k s.port → Moves a s (f k s)) :
    Moves a s (withTicket f s) := by
  unfold withTicket
  split
  · rename_i k issued
    exact h k (ready_of_issuable issued)
  · exact refuse_moves _ s

theorem accept_moves {k : TicketNo} {s : State} (kind : RequestKind) (arg : TicketArg) (link : Option TicketNo)
    {f : SendFrame} (may : f = .leave → a.tables) (ready : Ready k s.port) : Moves a s (accept k kind arg link f s) := by
  refine .trans ((issue_moves kind arg link ready).trans ?_) (respond_moves _ _ _)
  refine (Move.tx { (issue k kind arg link s).tx with
    sendList := (issue k kind arg link s).tx.sendList ++ [{ ticket := some k, frame := f }] } id (fun q => ?_)
    fun n own => .inl own).run
  obtain held | ⟨e, he, leave⟩ := q
  · exact .inl (.inl held)
  · obtain before | new := List.mem_append.1 he
    · exact .inl (.inr ⟨e, before, leave⟩)
    · obtain rfl := List.mem_singleton.1 new
      exact .inr (may leave)

theorem doJoin_moves (may : a.tables) (args : List Byte) (s : State) : Moves a s (doJoin args s) := by
  unfold doJoin
  split
  · exact refuse_moves _ s
  · exact withTicket_moves fun k ready => (mship_moves may s { s.mship with state := .joinSent }).trans
      (accept_moves _ _ _ (by simp) ready)

theorem leaveBundle_moves (s : State) : Moves a s (leaveBundle s) := by
  unfold leaveBundle
  split
  · split
    · exact .refl
    · dsimp only
      split
      · exact completeCommit_moves _ s
      · exact (completeCommit_moves _ s).trans (abandonUnheardFragment_moves _)
  · exact .refl

@[simp] theorem abandonUnheardFragment_port (s : State) : (abandonUnheardFragment s).port = s.port := by
  obtain ⟨t, ht⟩ := abandonUnheardFragment_tx s
  rw [ht, State.withTx_port]

theorem completeCommit_ready {k : TicketNo} {s : State} (o : Completion) (h : Ready k s.port) :
    Ready k (completeCommit o s).port := by
  unfold completeCommit
  split
  · exact complete_ready _ o h
  · exact h

theorem leaveBundle_ready {k : TicketNo} {s : State} (h : Ready k s.port) : Ready k (leaveBundle s).port := by
  unfold leaveBundle
  split
  · split
    · exact h
    · dsimp only
      split
      · exact completeCommit_ready _ h
      · rw [abandonUnheardFragment_port]
        exact completeCommit_ready _ h
  · exact h

theorem acceptLeave_moves (may : a.tables) {k : TicketNo} {s : State} (ready : Ready k s.port) :
    Moves a s (acceptLeave k s) := by
  have cancelled : Moves a s (completeAll (ticketsIn (leaveBundle s).port (· == .queued)) .cancelled (leaveBundle s)) :=
    (leaveBundle_moves s).trans (completeAll_moves _ _ _)
  have still := completeAll_ready (ticketsIn (leaveBundle s).port (· == .queued)) .cancelled (leaveBundle_ready ready)
  unfold acceptLeave
  dsimp only
  generalize completeAll (ticketsIn (leaveBundle s).port (· == .queued)) .cancelled (leaveBundle s) = u at cancelled still
  have emptied : Moves a u ((u.withBundle { draft := [], outgoing := none }).withTx { u.tx with sendList := [] }) := by
    refine .trans ?_ (tx_moves id (fun q => .inl (.inl (q.resolve_right ?_))) fun n own => .inl own)
    · exact bundle_moves fun _ => ⟨⟨Nat.zero_le 32, List.nodup_nil⟩, by simp⟩
    · simp
  refine (cancelled.trans emptied).trans (.trans ?_ (accept_moves _ _ _ (fun _ => may) still))
  exact (mship_moves may _ _).trans (stopSilence_moves _)

theorem doLeave_moves (may : a.tables) (args : List Byte) (s : State) : Moves a s (doLeave args s) := by
  unfold doLeave
  split
  · exact refuse_moves _ s
  · exact withTicket_moves fun k ready => acceptLeave_moves may ready

theorem doClaim_moves (args : List Byte) (s : State) : Moves a s (doClaim args s) := by
  unfold doClaim
  split
  · exact refuse_moves _ s
  · split_ifs
    · exact refuse_moves _ s
    · exact refuse_moves _ s
    · exact withTicket_moves fun k ready => accept_moves _ _ _ (by simp) ready

theorem doRelease_moves (args : List Byte) (s : State) : Moves a s (doRelease args s) := by
  unfold doRelease
  split
  · exact refuse_moves _ s
  · split_ifs
    · exact refuse_moves _ s
    · exact refuse_moves _ s
    · exact refuse_moves _ s
    · exact refuse_moves _ s
    · exact withTicket_moves fun k ready => accept_moves _ _ _ (by simp) ready

theorem withdrawNow_moves (c : TicketNo) (s : State) : Moves a s (withdrawNow c s) := by
  refine .trans (.trans ?_ (complete_moves c .withdrawn _)) (respond_moves _ _ _)
  refine tx_moves id (fun q => .inl ?_) fun n own => .inl own
  exact q.imp id fun ⟨e, he, leave⟩ => ⟨e, (List.mem_filter.1 he).1, leave⟩

theorem doWithdraw_moves (args : List Byte) (s : State) : Moves a s (doWithdraw args s) := by
  unfold doWithdraw
  split
  · exact refuse_moves _ s
  · split
    · exact refuse_moves _ s
    · split
      · exact refuse_moves _ s
      · split_ifs
        · exact refuse_moves _ s
        · exact withdrawNow_moves _ s
        · exact withTicket_moves fun k ready => accept_moves _ _ _ (by simp) ready

theorem doCommit_moves (args : List Byte) (s : State) : Moves a s (doCommit args s) := by
  unfold doCommit
  split_ifs
  · exact refuse_moves _ s
  · exact refuse_moves _ s
  · exact refuse_moves _ s
  · refine withTicket_moves fun k ready => ?_
    refine .trans ?_ (accept_moves _ _ _ nofun ready)
    refine bundle_moves fun law => ⟨⟨Nat.zero_le 32, List.nodup_nil⟩, fun o e => ?_⟩
    obtain rfl := Option.some.inj e
    exact law.1

theorem doSignal_moves (args : List Byte) (s : State) : Moves a s (doSignal args s) := by
  unfold doSignal
  split
  · exact refuse_moves _ s
  · split_ifs
    · exact refuse_moves _ s
    · exact refuse_moves _ s
    · exact withTicket_moves fun k ready => accept_moves _ _ _ (by simp) ready

theorem choice_moves {p : Prop} [Decidable p] {f g : State → State} {s : State} (hf : p → Moves a s (f s))
    (hg : Moves a s (g s)) : Moves a s ((if p then f else g) s) := by
  split
  · rename_i h
    exact hf h
  · exact hg

/-- Every request, by its code: the watch set is touched by SET_WATCH alone. -/
theorem requestPoint_moves (may : a.tables) {rq : Request} (watch : rq.code = 0x07 → a.watch) (s : State) :
    Moves a s (requestPoint rq s) :=
  choice_moves (fun _ => doStatus_moves _ s) <| choice_moves (fun _ => doConfigure_moves may _ s) <|
  choice_moves (fun _ => doReadCells_moves _ s) <| choice_moves (fun _ => doReadRegion_moves _ s) <|
  choice_moves (fun _ => respond_moves _ _ s) <| choice_moves (fun _ => doTakeNotice_moves _ s) <|
  choice_moves (fun code => doSetWatch_moves (watch code) _ s) <| choice_moves (fun _ => doStageCell_moves _ s) <|
  choice_moves (fun _ => doUnstageCell_moves _ s) <| choice_moves (fun _ => doDiscardDraft_moves _ s) <|
  choice_moves (fun _ => doJoin_moves may _ s) <| choice_moves (fun _ => doLeave_moves may _ s) <|
  choice_moves (fun _ => doClaim_moves _ s) <| choice_moves (fun _ => doRelease_moves _ s) <|
  choice_moves (fun _ => doWithdraw_moves _ s) <| choice_moves (fun _ => doCommit_moves _ s) <|
  choice_moves (fun _ => doSignal_moves _ s) <| refuse_moves _ s

/-- A SET_WATCH is in hand. -/
def WatchInHand (s : State) : Prop := ∃ args, s.port.phase = .working { code := 0x07, args := args }

theorem carryOut_moves (may : a.tables) {s : State} (watch : WatchInHand s → a.watch) : Moves a s (carryOut s) := by
  unfold carryOut
  split
  · rename_i rq hand
    exact requestPoint_moves may (fun code => watch ⟨rq.args, by rw [hand, ← code]⟩) s
  · exact .refl
  · exact .refl

/-- The check point of a request's command is its check point by its code. -/
theorem checkPoint_moves {code : Byte} {f : List Byte → State → State} {s : State}
    (h : ∀ args, s.port.phase = .working { code := code, args := args } → Moves a s (f args s)) :
    Moves a s (checkPoint code f s) := by
  unfold checkPoint
  split
  · rename_i rq hand
    split
    · rename_i e
      exact h rq.args (by rw [hand, ← e])
    · exact .refl
  · exact .refl
  · exact .refl

/-! ### Timers and slots -/

theorem expireListen_moves (s : State) : Moves a s (expireListen s) := by
  unfold expireListen
  split
  · exact timers_moves s _ rfl rfl
  · exact .refl

theorem expireSilence_moves (x : Station) (s : State) : Moves a s (expireSilence x s) := by
  unfold expireSilence
  split
  · dsimp only
    split
    · exact setSilence_moves x _ s
    · rename_i unnamed
      refine (setSilence_moves x _ s).trans (service_moves _ _ rfl rfl fun ⟨few, nodup, reason⟩ => ⟨few, ?_, fun d hd => ?_⟩)
      · rw [List.map_append, List.nodup_append]
        refine ⟨nodup, List.nodup_singleton _, fun t ht u hu e => unnamed ?_⟩
        obtain ⟨d, hd, rfl⟩ := List.mem_map.1 ht
        obtain rfl := List.mem_singleton.1 hu
        exact List.any_eq_true.2 ⟨d, hd, beq_iff_eq.2 e⟩
      · obtain before | new := List.mem_append.1 hd
        · exact reason d before
        · obtain rfl := List.mem_singleton.1 new
          exact fun settlement => by cases settlement
  · exact .refl

theorem expirePresence_moves (s : State) : Moves a s (expirePresence s) := by
  unfold expirePresence
  split
  · exact (service_moves s { s.tx with presence := true } rfl rfl id).trans (startPresence_moves _)
  · exact .refl

theorem expireMendWindow_moves (s : State) : Moves a s (expireMendWindow s) := by
  unfold expireMendWindow
  split
  · split
    · exact attemptMend_moves s
    · exact .refl
  · exact .refl

theorem expireHoldOff_moves (s : State) : Moves a s (expireHoldOff s) := by
  unfold expireHoldOff
  split
  · exact access_moves (fun _ => Nat.zero_le 8) (.inl rfl)
  · exact .refl

theorem passSlots_eq (k : Nat) (s : State) : passSlots k s = ((s.withMship { s.mship with
      silence := s.mship.silence.map (timerRun k)
      presence := timerRun k s.mship.presence
      listen := timerRun k s.mship.listen }).withMend { s.mend with
      current := s.mend.current.map fun m => { m with window := timerRun k m.window } }).withAccess { s.access with
      gapCount := if s.bus.state = .idle then s.access.gapCount + k else s.access.gapCount
      holdOff := timerRun k s.access.holdOff } := rfl

theorem passSlots_moves (k : Nat) (s : State) : Moves a s (passSlots k s) := by
  rw [passSlots_eq]
  refine .trans ?_ (access_moves id (.inl rfl))
  refine .trans ?_ (mend_moves fun law => ⟨law.1, fun busy => law.2 fun idle => busy (congrArg (Option.map _) idle)⟩)
  exact timers_moves s _ rfl rfl

theorem ite_moves {p : Prop} [Decidable p] {s u v : State} (hu : Moves a s u) (hv : Moves a s v) :
    Moves a s (if p then u else v) := by
  split <;> assumption

theorem dueExpiries_moves (s : State) : Moves a s (dueExpiries s) := by
  unfold dueExpiries
  dsimp only
  refine .trans ?_ (ite_moves (expireMendWindow_moves _) .refl)
  refine .trans ?_ (ite_moves (expirePresence_moves _) .refl)
  refine .trans ?_ (foldl_moves (fun s x => ite_moves (expireSilence_moves x s) .refl) _ _)
  refine .trans ?_ (ite_moves (expireHoldOff_moves _) .refl)
  exact ite_moves (expireListen_moves s) .refl

theorem slotPasses_moves (s : State) : Moves a s (slotPasses s) := (passSlots_moves 1 s).trans (dueExpiries_moves _)

theorem startWithin_moves {k : Nat} {s t : State} (h : startWithin k s = some t) : Moves a s t := by
  obtain ⟨j, -, start, -⟩ := startWithin_eq_some.1 h
  have slots : Moves a s (slotPasses^[j] s) := by
    clear start
    induction j with
    | zero => exact .refl
    | succ j ih =>
      rw [Function.iterate_succ_apply']
      exact ih.trans (slotPasses_moves _)
  unfold startNow at start
  split at start
  · obtain rfl := Option.some.inj start
    exact slots.trans (startTransmission_moves _)
  · cases start

theorem startAfter_moves (slots : Nat) (s : State) : Moves a s (startAfter slots s) := by
  unfold startAfter
  cases h : startWithin slots s with
  | none => exact .refl
  | some t => exact startWithin_moves h

theorem tick_moves (may : a.tables) {s : State} (watch : WatchInHand s → a.watch) : Moves a s (tick s) := by
  unfold tick
  split
  · exact .refl
  · refine (carryOut_moves may watch).trans ?_
    generalize carryOut s = u
    dsimp only
    cases h : startWithin 1 u with
    | none =>
      rw [Option.getD_none]
      exact slotPasses_moves u
    | some t =>
      rw [Option.getD_some]
      exact startWithin_moves h

/-! ### Every command -/

/-- A command other than RESET and its release. -/
def NoReset (c : Instr) : Prop := c ≠ .reset ∧ ∀ n r, c ≠ .resetRelease n r

/-- A command that is the carrier end of a frame, heard or driven, whole or damaged. -/
def IsCarrierEnd (c : Instr) : Prop := (∃ f, c = frameCommand f) ∨ (∃ h, c = .damagedFrame h) ∨ ∃ m h, c = .collision m h

theorem running_moves {f : State → State} {s : State} (h : Moves a s (f s)) :
    ∃ t, running f s = .next t ∧ Moves a s t := by
  unfold running
  split
  · exact ⟨s, rfl, .refl⟩
  · exact ⟨f s, rfl, h⟩

theorem atEvent_moves (may : a.tables) {f : State → State} {s : State} (watch : WatchInHand s → a.watch)
    (h : ∀ u, Moves a u (f u)) : ∃ t, atEvent f s = .next t ∧ Moves a s t :=
  running_moves ((carryOut_moves may watch).trans (h _))

/-- Every command but a reset completes and is a run of moves: the reference sender is touched by carrier ends alone, and the
watch set where a SET_WATCH is in hand alone. -/
theorem exec_moves (may : a.tables) {c : Instr} {s : State} (plain : NoReset c) (reference : IsCarrierEnd c → a.reference)
    (watch : WatchInHand s → a.watch) : ∃ t, exec c s = .next t ∧ Moves a s t := by
  have frame : ∀ f, c = frameCommand f → ∃ t, exec c s = .next t ∧ Moves a s t := by
    rintro f rfl
    rw [exec_frameCommand]
    exact atEvent_moves may watch (carrierEnd_moves may (reference (.inl ⟨f, rfl⟩)) f)
  cases c with
  | reset => exact absurd rfl plain.1
  | resetRelease n r => exact absurd rfl (plain.2 n r)
  | poll n => exact running_moves (setSdo_moves _ s)
  | fetch n => exact running_moves (fetchPort_moves n s)
  | requestTransaction sdi => exact running_moves (requestPort_moves sdi s)
  | status => exact running_moves (checkPoint_moves fun args _ => doStatus_moves args s)
  | configure => exact running_moves (checkPoint_moves fun args _ => doConfigure_moves may args s)
  | readCells => exact running_moves (checkPoint_moves fun args _ => doReadCells_moves args s)
  | stageCell => exact running_moves (checkPoint_moves fun args _ => doStageCell_moves args s)
  | unstageCell => exact running_moves (checkPoint_moves fun args _ => doUnstageCell_moves args s)
  | discardDraft => exact running_moves (checkPoint_moves fun args _ => doDiscardDraft_moves args s)
  | takeNotice => exact running_moves (checkPoint_moves fun args _ => doTakeNotice_moves args s)
  | setWatch => exact running_moves (checkPoint_moves fun args hand => doSetWatch_moves (watch ⟨args, hand⟩) args s)
  | readRegion => exact running_moves (checkPoint_moves fun args _ => doReadRegion_moves args s)
  | readMembers => exact running_moves (checkPoint_moves fun args _ => respond_moves _ _ s)
  | join => exact running_moves (checkPoint_moves fun args _ => doJoin_moves may args s)
  | leave => exact running_moves (checkPoint_moves fun args _ => doLeave_moves may args s)
  | claim => exact running_moves (checkPoint_moves fun args _ => doClaim_moves args s)
  | release => exact running_moves (checkPoint_moves fun args _ => doRelease_moves args s)
  | withdraw => exact running_moves (checkPoint_moves fun args _ => doWithdraw_moves args s)
  | commit => exact running_moves (checkPoint_moves fun args _ => doCommit_moves args s)
  | signal => exact running_moves (checkPoint_moves fun args _ => doSignal_moves args s)
  | unassignedRequest =>
    refine running_moves ?_
    unfold unassignedPoint
    split
    · exact ite_moves .refl (refuse_moves _ s)
    · exact .refl
    · exact .refl
  | carrierBegin n idle =>
    refine atEvent_moves may watch fun u => ?_
    unfold beginCarrier
    exact ite_moves (bus_moves u _) .refl
  | transmissionStart slots => exact atEvent_moves may watch (startAfter_moves slots)
  | presenceFrame h => exact frame ⟨h, .presence⟩ rfl
  | joinFrame h r => exact frame ⟨h, .join r⟩ rfl
  | leaveFrame h => exact frame ⟨h, .leave⟩ rfl
  | dropFrame h t r => exact frame ⟨h, .drop t r⟩ rfl
  | claimFrame h r => exact frame ⟨h, .claim r⟩ rfl
  | yieldFrame h r => exact frame ⟨h, .yield r⟩ rfl
  | writeFrame h w => exact frame ⟨h, .write w⟩ rfl
  | snapStateFrame h t im => exact frame ⟨h, .snapState t im⟩ rfl
  | snapCellsFrame h t g rs => exact frame ⟨h, .snapCells t g rs⟩ rfl
  | mendFrame h t c => exact frame ⟨h, .mend t c⟩ rfl
  | mendReplyFrame h t c answer => exact frame ⟨h, .mendReply t c answer⟩ rfl
  | signalFrame h t bs => exact frame ⟨h, .signal t bs⟩ rfl
  | damagedFrame h => exact atEvent_moves may watch (heardBytesEnd_moves may (reference (.inr (.inl ⟨h, rfl⟩))) h)
  | collision m h => exact atEvent_moves may watch (collide_moves may (reference (.inr (.inr ⟨m, h, rfl⟩))) m h)
  | ackWindowEnd map => exact atEvent_moves may watch (endAckWindow_moves may map)
  | listenTimerExpiry => exact atEvent_moves may watch expireListen_moves
  | silenceTimerExpiry x => exact atEvent_moves may watch (expireSilence_moves x)
  | presenceTimerExpiry => exact atEvent_moves may watch expirePresence_moves
  | mendWindowExpiry => exact atEvent_moves may watch expireMendWindow_moves
  | holdOffExpiry => exact atEvent_moves may watch expireHoldOff_moves
  | storageUpset c v d check =>
    exact atEvent_moves may watch fun u => .tail (.single (.mem c d)) (.cells _)

/-- What all commands together may do. -/
def Allowed.all : Allowed := ⟨True, True, True⟩

theorem exec_moves_all {c : Instr} {s t : State} (plain : NoReset c) (h : exec c s = .next t) : Moves .all s t := by
  obtain ⟨u, next, moves⟩ := exec_moves (a := .all) trivial plain (fun _ => trivial) (fun _ => trivial)
  obtain rfl := Host.Outcome.next.inj (next.symm.trans h)
  exact moves

theorem tick_moves_all (s : State) : Moves .all s (tick s) := tick_moves trivial fun _ => trivial

/-- A law that reads neither the queue of commands nor the straps, that holds at reset and that every run keeps, every step
keeps. -/
theorem step_keeps {P : State → Prop} (kept : ∀ s t, Moves .all s t → P s → P t)
    (reset : ∀ s straps, P (resetWith straps s)) (pending : ∀ s rest, P s → P (s.withPending rest)) {s t : State} (law : P s)
    (h : step s = .next t) : P t := by
  unfold step at h
  split at h
  · obtain rfl := Host.Outcome.next.inj h
    exact kept s _ (tick_moves_all s) law
  · rename_i c rest _
    by_cases plain : NoReset c
    · exact kept _ t (exec_moves_all plain h) (pending s rest law)
    · rw [NoReset, not_and_or, not_ne_iff, not_forall] at plain
      obtain rfl | ⟨n, hn⟩ := plain
      · obtain rfl := Host.Outcome.next.inj h
        exact reset _ _
      · obtain ⟨r, hr⟩ := not_forall.1 hn
        obtain rfl := not_ne_iff.1 hr
        obtain rfl := Host.Outcome.next.inj h
        exact reset _ _

/-! ### The laws at reset -/

theorem storeLaw_reset : StoreLaw State.reset := ⟨reset_memory_wf, fun _ hp => nomatch hp⟩

theorem portLaw_reset : PortLaw State.reset := by
  refine ⟨by decide, List.nodup_nil, fun k => ?_, fun k => ?_, fun r => Nat.zero_le 1⟩
  · simp [State.reset, HostPort.reset]
  · simp [State.reset, HostPort.reset]

theorem capacityLaw_reset : CapacityLaw State.reset := by simp [CapacityLaw, State.reset, AccessTimer.reset, Transmit.reset]

end Sys2Proof.Machine

namespace Sys2Proof

open Sys2Proof.Machine Sys2Proof.Safety

/-- Settles O4: every command is a run of moves, and every move of the port keeps the law. -/
theorem stepKeepsPortLaw : Obligations.StepKeepsPortLaw := fun _ _ law h =>
  step_keeps (P := PortLaw) (fun _ _ moves => moves.keeps_portLaw) (fun _ _ => portLaw_reset) (fun _ _ law => law) law h

/-- Settles O2: every command but a reset is a run of moves, which keep the queue and the straps. -/
theorem everyCommandCompletes : Obligations.EveryCommandCompletes := by
  intro c s
  by_cases plain : NoReset c
  · obtain ⟨t, next, moves⟩ := exec_moves (a := .all) (s := s) trivial plain (fun _ => trivial) (fun _ => trivial)
    exact ⟨t, next, moves.pending, fun _ _ => moves.straps⟩
  · cases c with
    | reset => exact ⟨_, rfl, rfl, fun no => absurd rfl no⟩
    | resetRelease n r => exact ⟨_, rfl, rfl, fun _ no => absurd rfl (no n r)⟩
    | _ => exact absurd ⟨by simp, by simp⟩ plain

/-- Settles O3: the one move that touches the memory writes a cell's data. -/
theorem stepKeepsStoreLaw : Obligations.StepKeepsStoreLaw := fun _ _ law h =>
  step_keeps (P := StoreLaw) (fun _ _ moves => moves.keeps_storeLaw) (fun _ _ => storeLaw_reset) (fun _ _ law => law) law h

/-- Settles O6: every move of a list is made within its capacity. -/
theorem stepKeepsCapacityLaw : Obligations.StepKeepsCapacityLaw := fun _ _ law h =>
  step_keeps (P := CapacityLaw) (fun _ _ moves => moves.keeps_capacityLaw) (fun _ _ => capacityLaw_reset)
    (fun _ _ law => law) law h

end Sys2Proof
end

section
/-! The laws of the replicated tables as data: what each operation on an entry, a region or a table makes of them. -/

namespace Sys2Proof.Machine

open Sys2Proof.Safety

/-! ### Regions (R36) -/

/-- The law of one region entry against the Membership Table. -/
def RegionOk (t : Vector MemberEntry 16) (e : RegionEntry) : Prop :=
  (∀ h, e.holder = some h → t[h].state = .member ∧ h ∉ e.waiters) ∧ (∀ w ∈ e.waiters, t[w].state = .member)
    ∧ e.waiters.Nodup ∧ (e.holder = none → e.waiters = [])

/-- The law of the Lock Table against the Membership Table. -/
def LocksOk (t : Vector MemberEntry 16) (l : Vector RegionEntry 16) : Prop := ∀ r : Region, RegionOk t l[r]

/-- Station x neither holds nor waits. -/
def FreeOf (x : Station) (e : RegionEntry) : Prop := e.holder ≠ some x ∧ x ∉ e.waiters

variable {t t' : Vector MemberEntry 16} {x : Station} {e : RegionEntry}

theorem RegionOk.claim (ok : RegionOk t e) (member : t[x].state = .member) : RegionOk t (claimEntry x e) := by
  obtain ⟨holder, waiters, nodup, free⟩ := ok
  unfold claimEntry
  split
  · rename_i none
    refine ⟨fun h eq => ?_, waiters, nodup, nofun⟩
    obtain rfl := Option.some.inj eq
    exact ⟨member, by simp [free none]⟩
  · rename_i h held
    split
    · exact ⟨holder, waiters, nodup, free⟩
    · rename_i new
      rw [not_or] at new
      refine ⟨fun h' eq => ?_, fun w hw => ?_, ?_, fun no => ?_⟩
      · obtain rfl := Option.some.inj (held.symm.trans eq)
        exact ⟨(holder h held).1, by simpa using ⟨(holder h held).2, new.1⟩⟩
      · obtain before | rfl := by simpa using hw
        · exact waiters w before
        · exact member
      · simpa [List.nodup_append, nodup] using fun w hw (eq : w = x) => new.2 (eq ▸ hw)
      · exact absurd (held.symm.trans no) nofun

theorem RegionOk.yield (ok : RegionOk t e) (x : Station) : RegionOk t (yieldEntry x e) := by
  obtain ⟨holder, waiters, nodup, free⟩ := ok
  unfold yieldEntry
  split
  · split
    · exact ⟨nofun, nofun, List.nodup_nil, fun _ => rfl⟩
    · rename_i w ws queue
      rw [queue] at waiters nodup
      obtain ⟨fresh, rest⟩ := List.nodup_cons.1 nodup
      refine ⟨fun h eq => ?_, fun y hy => waiters y (List.mem_cons_of_mem _ hy), rest, nofun⟩
      obtain rfl := Option.some.inj eq
      exact ⟨waiters w List.mem_cons_self, fresh⟩
  · refine ⟨fun h eq => ⟨(holder h eq).1, fun mem => (holder h eq).2 (List.mem_filter.1 mem).1⟩,
      fun w hw => waiters w (List.mem_filter.1 hw).1, nodup.filter _, fun no => ?_⟩
    rw [show e.waiters = [] from free no]
    rfl

/-- A station that has yielded neither holds nor waits (R40, R42). -/
theorem freeOf_yield (ok : RegionOk t e) (x : Station) : FreeOf x (yieldEntry x e) := by
  obtain ⟨holder, -, nodup, -⟩ := ok
  unfold yieldEntry
  split
  · rename_i held
    split
    · exact ⟨nofun, nofun⟩
    · rename_i w ws queue
      have gone := (holder x held).2
      rw [queue, List.mem_cons, not_or] at gone
      exact ⟨fun eq => gone.1 (Option.some.inj eq).symm, gone.2⟩
  · rename_i other
    exact ⟨other, by simp⟩

/-- The regions' law stands where every MEMBER named in one is still MEMBER. -/
theorem LocksOk.of_members {l : Vector RegionEntry 16} (ok : LocksOk t l)
    (stay : ∀ y, t[y].state = .member → t'[y].state = .member ∨ ∀ r : Region, FreeOf y l[r]) : LocksOk t' l := by
  intro r
  obtain ⟨holder, waiters, nodup, free⟩ := ok r
  refine ⟨fun h eq => ⟨(stay h (holder h eq).1).resolve_right fun gone => (gone r).1 eq, (holder h eq).2⟩,
    fun w hw => (stay w (waiters w hw)).resolve_right fun gone => (gone r).2 hw, nodup, free⟩

theorem LocksOk.set {l : Vector RegionEntry 16} {r : Region} (ok : LocksOk t l) (new : RegionOk t e) :
    LocksOk t (l.set r.val e) := by
  intro r'
  rw [getElem_set_fin]
  split
  · exact new
  · exact ok r'

@[simp] theorem getElem_map_fin {α β : Type} {n : Nat} (v : Vector α n) (f : α → β) (k : Fin n) : (v.map f)[k] = f v[k] := by
  simp only [Fin.getElem_fin, Vector.getElem_map]

@[simp] theorem getElem_replicate_fin {α : Type} {n : Nat} (a : α) (k : Fin n) : (Vector.replicate n a)[k] = a := by
  simp only [Fin.getElem_fin, Vector.getElem_replicate]

@[simp] theorem getElem_ofFn_fin {α : Type} {n : Nat} (f : Fin n → α) (k : Fin n) : (Vector.ofFn f)[k] = f k := by
  simp only [Fin.getElem_fin, Vector.getElem_ofFn]

theorem LocksOk.yieldAll {l : Vector RegionEntry 16} (ok : LocksOk t l) (x : Station) :
    LocksOk t (l.map (yieldEntry x)) := by
  intro r
  rw [getElem_map_fin]
  exact (ok r).yield x

theorem freeOf_yieldAll {l : Vector RegionEntry 16} (ok : LocksOk t l) (x : Station) (r : Region) :
    FreeOf x (l.map (yieldEntry x))[r] := by
  rw [getElem_map_fin]
  exact freeOf_yield (ok r) x

theorem locksOk_free (t : Vector MemberEntry 16) : LocksOk t (Vector.replicate 16 freeRegion) := by
  intro r
  rw [getElem_replicate_fin]
  exact ⟨nofun, nofun, List.nodup_nil, fun _ => rfl⟩

/-! ### The join order (R78) -/

/-- The stations whose entry is JOINING. -/
def joining (t : Vector MemberEntry 16) : Finset Station := Finset.univ.filter fun x => t[x].state = .joining

theorem mem_joining : x ∈ joining t ↔ t[x].state = .joining := by simp [joining]

/-- A count over a vector is a count over its places. -/
theorem countP_toList {α : Type} {n : Nat} (v : Vector α n) (p : α → Bool) :
    v.toList.countP p = (Finset.univ.filter fun k : Fin n => p v[k] = true).card := by
  have list : v.toList = (List.finRange n).map fun k => v[k] := by
    apply List.ext_getElem
    · simp
    · intro i h1 h2
      simp
  rw [list, List.countP_map, List.countP_eq_length_filter]
  simp only [Finset.card_def, Finset.filter_val, Fin.univ_def, Multiset.filter_coe, Multiset.coe_card]
  congr 1
  refine List.filter_congr fun k _ => ?_
  simp

theorem joiningCount_eq (t : Vector MemberEntry 16) : joiningCount t = (joining t).card := by
  rw [joiningCount, countP_toList, joining]
  simp only [beq_iff_eq]

theorem joiningCount_le (t : Vector MemberEntry 16) : joiningCount t ≤ 16 := by
  rw [joiningCount_eq]
  exact (Finset.card_le_univ _).trans (by simp)

/-- The law of the Membership Table, but that a sponsor may be the station `gone`, whose joiners are still to be handed on. -/
structure TableOk (gone : Option Station) (t : Vector MemberEntry 16) : Prop where
  sponsored : ∀ x : Station, t[x].state = .joining →
    ∃ y : Station, t[x].sponsor = some y ∧ (t[y].state = .member ∨ gone = some y)
  placed : ∀ x : Station, t[x].state = .joining → ∃ p, t[x].joinPlace = some p ∧ p < joiningCount t
  others : ∀ x : Station, t[x].state ≠ .joining → t[x].sponsor = none ∧ t[x].joinPlace = none
  distinct : ∀ x y : Station, t[x].state = .joining → t[y].state = .joining → t[x].joinPlace = t[y].joinPlace → x = y

theorem tableLaw_iff (s : State) : TableLaw s ↔ TableOk none s.mship.table := by
  constructor
  · rintro ⟨joiner, others, distinct⟩
    refine ⟨fun x hx => ?_, fun x hx => (joiner x hx).2, others, distinct⟩
    obtain ⟨y, sponsor, member⟩ := (joiner x hx).1
    exact ⟨y, sponsor, .inl member⟩
  · rintro ⟨sponsored, placed, others, distinct⟩
    refine ⟨fun x hx => ⟨?_, placed x hx⟩, others, distinct⟩
    obtain ⟨y, sponsor, member⟩ := sponsored x hx
    exact ⟨y, sponsor, member.resolve_right nofun⟩

/-- Tables that agree but for the recorded sequences. -/
def SameEntries (t t' : Vector MemberEntry 16) : Prop :=
  ∀ x : Station, t'[x].state = t[x].state ∧ t'[x].sponsor = t[x].sponsor ∧ t'[x].joinPlace = t[x].joinPlace

theorem sameEntries_setSeq (t : Vector MemberEntry 16) (x : Station) (q : Seq) :
    SameEntries t (t.set x.val { t[x] with lastSeq := q }) := by
  intro y
  rw [getElem_set_fin]
  split
  · subst y
    exact ⟨rfl, rfl, rfl⟩
  · exact ⟨rfl, rfl, rfl⟩

theorem SameEntries.joiningCount (same : SameEntries t t') : joiningCount t' = joiningCount t := by
  rw [joiningCount_eq, joiningCount_eq]
  congr 1
  ext x
  rw [mem_joining, mem_joining, (same x).1]

theorem TableOk.of_same {gone : Option Station} (ok : TableOk gone t) (same : SameEntries t t') : TableOk gone t' := by
  obtain ⟨sponsored, placed, others, distinct⟩ := ok
  have state := fun x => (same x).1
  have sponsor := fun x => (same x).2.1
  have place := fun x => (same x).2.2
  exact ⟨by simpa only [state, sponsor] using sponsored, by simpa only [state, place, same.joiningCount] using placed,
    by simpa only [state, sponsor, place] using others, by simpa only [state, place] using distinct⟩

/-- A table without a JOINING entry. -/
theorem tableOk_of_no_joiner (none_joining : ∀ x : Station, t[x].state ≠ .joining)
    (clear : ∀ x : Station, t[x].sponsor = none ∧ t[x].joinPlace = none) : TableOk none t :=
  ⟨fun x hx => absurd hx (none_joining x), fun x hx => absurd hx (none_joining x), fun x _ => clear x,
    fun x _ hx => absurd hx (none_joining x)⟩

/-- A join place after the entry at place `gone`, if one left, has left the join order (R78). -/
def placeAfter (gone : Option Nat) (k : Nat) : Nat :=
  match gone with
  | some p => if p < k then k - 1 else k
  | none => k

theorem leaveJoinOrder_getElem (x : Station) (e : MemberEntry) (t : Vector MemberEntry 16) (y : Station) :
    (leaveJoinOrder x e t)[y] =
      if y = x then e else { t[y] with joinPlace := t[y].joinPlace.map (placeAfter t[x].joinPlace) } := by
  unfold leaveJoinOrder
  rw [getElem_set_fin]
  split
  · rfl
  · cases t[x].joinPlace with
    | some p =>
      dsimp only
      rw [getElem_map_fin]
      rfl
    | none =>
      have same : placeAfter none = id := rfl
      dsimp only
      rw [same, Option.map_id_fun, id]

/-- A station that leaves the join order, and the stations that stay in it. -/
theorem joining_leaveJoinOrder {e : MemberEntry} (left : e.state ≠ .joining) :
    joining (leaveJoinOrder x e t) = (joining t).erase x := by
  ext y
  rw [Finset.mem_erase, mem_joining, mem_joining, leaveJoinOrder_getElem]
  by_cases h : y = x <;> simp [-Fin.getElem_fin, h, left]

/-- A station leaves the join order: its joiners, if it was MEMBER, wait to be handed on (R78). -/
theorem TableOk.leave {e : MemberEntry} {gone : Option Station} (ok : TableOk none t) (left : e.state ≠ .joining)
    (clear : e.sponsor = none ∧ e.joinPlace = none)
    (joiners : t[x].state = .member → e.state = .member ∨ gone = some x) : TableOk gone (leaveJoinOrder x e t) := by
  obtain ⟨sponsored, placed, others, distinct⟩ := ok
  have still : ∀ y, (leaveJoinOrder x e t)[y].state = .joining → y ≠ x ∧ t[y].state = .joining := fun y hy => by
    rw [leaveJoinOrder_getElem] at hy
    split at hy
    · exact absurd hy left
    · rename_i h
      exact ⟨h, hy⟩
  have count := joiningCount_eq (leaveJoinOrder x e t)
  rw [joining_leaveJoinOrder left] at count
  refine ⟨fun y hy => ?_, fun y hy => ?_, fun y hy => ?_, fun y z hy hz same => ?_⟩
  · obtain ⟨other, was⟩ := still y hy
    obtain ⟨z, sponsor, member⟩ := sponsored y was
    refine ⟨z, by rw [leaveJoinOrder_getElem, if_neg other]; exact sponsor, ?_⟩
    rw [leaveJoinOrder_getElem]
    have member := member.resolve_right nofun
    split
    · subst z
      exact joiners member
    · exact .inl member
  · obtain ⟨other, was⟩ := still y hy
    obtain ⟨k, place, below⟩ := placed y was
    refine ⟨placeAfter t[x].joinPlace k, by rw [leaveJoinOrder_getElem, if_neg other, place]; rfl, ?_⟩
    rw [count]
    rw [joiningCount_eq] at below
    by_cases join : t[x].state = .joining
    · obtain ⟨p, its, limit⟩ := placed x join
      rw [joiningCount_eq] at limit
      rw [Finset.card_erase_of_mem (mem_joining.2 join), its]
      have differ : k ≠ p := by
        rintro rfl
        exact other (distinct y x was join (place.trans its.symm))
      unfold placeAfter
      dsimp only
      split <;> omega
    · rw [Finset.erase_eq_of_notMem (mt mem_joining.1 join), (others x join).2]
      exact below
  · rw [leaveJoinOrder_getElem] at hy ⊢
    split
    · exact clear
    · rename_i other
      rw [if_neg other] at hy
      have := others y hy
      exact ⟨this.1, by rw [this.2]; rfl⟩
  · obtain ⟨other, was⟩ := still y hy
    obtain ⟨other', was'⟩ := still z hz
    refine distinct y z was was' ?_
    obtain ⟨k, place, -⟩ := placed y was
    obtain ⟨k', place', -⟩ := placed z was'
    simp only [leaveJoinOrder_getElem, other, other', if_false, place, place', Option.map_some, Option.some.injEq] at same
    rw [place, place', Option.some.injEq]
    by_cases join : t[x].state = .joining
    · obtain ⟨p, its, -⟩ := placed x join
      have differ : k ≠ p := fun eq => other (distinct y x was join (place.trans (eq ▸ its.symm)))
      have differ' : k' ≠ p := fun eq => other' (distinct z x was' join (place'.trans (eq ▸ its.symm)))
      rw [its] at same
      unfold placeAfter at same
      dsimp only at same
      split at same <;> split at same <;> omega
    · rw [(others x join).2] at same
      exact same

/-- A station joins at the tail of the join order (R81). -/
theorem TableOk.join {z : Station} {gone : Option Station} (ok : TableOk gone t) (absent : t[x].state = .absent)
    (member : t[z].state = .member) (q : Seq) : TableOk gone (makeJoining x q z t) := by
  obtain ⟨sponsored, placed, others, distinct⟩ := ok
  have entry : ∀ y : Station, (makeJoining x q z t)[y] = if y = x then
      { state := .joining, lastSeq := q, sponsor := some z, joinPlace := some (joiningCount t) } else t[y] :=
    fun y => getElem_set_fin t x y _
  have count : joiningCount (makeJoining x q z t) = joiningCount t + 1 := by
    rw [joiningCount_eq, joiningCount_eq, ← Finset.card_insert_of_notMem (a := x) (by rw [mem_joining, absent]; nofun)]
    congr 1
    ext y
    rw [Finset.mem_insert, mem_joining, mem_joining, entry]
    by_cases h : y = x <;> simp [-Fin.getElem_fin, h]
  have stays : ∀ y : Station, t[y].state = .member → y ≠ x := by
    rintro y hy rfl
    rw [absent] at hy
    cases hy
  refine ⟨fun y hy => ?_, fun y hy => ?_, fun y hy => ?_, fun y y' hy hy' same => ?_⟩
  · by_cases h : y = x
    · exact ⟨z, by rw [entry, if_pos h], .inl (by rw [entry, if_neg (stays z member)]; exact member)⟩
    · rw [entry, if_neg h] at hy ⊢
      obtain ⟨w, sponsor, its⟩ := sponsored y hy
      refine ⟨w, sponsor, its.imp_left fun m => ?_⟩
      rw [entry, if_neg (stays w m)]
      exact m
  · rw [count]
    by_cases h : y = x
    · exact ⟨joiningCount t, by rw [entry, if_pos h], Nat.lt_succ_self _⟩
    · rw [entry, if_neg h] at hy ⊢
      obtain ⟨p, place, below⟩ := placed y hy
      exact ⟨p, place, Nat.lt_succ_of_lt below⟩
  · by_cases h : y = x
    · rw [entry, if_pos h] at hy
      exact absurd rfl hy
    · rw [entry, if_neg h] at hy ⊢
      exact others y hy
  · have new : ∀ y : Station, t[y].state = .joining → t[y].joinPlace ≠ some (joiningCount t) := fun y hy eq => by
      obtain ⟨p, place, below⟩ := placed y hy
      rw [place, Option.some.injEq] at eq
      omega
    rw [entry] at hy same
    rw [entry] at hy' same
    by_cases h : y = x <;> by_cases h' : y' = x
    · rw [h, h']
    · rw [if_neg h'] at hy'
      rw [if_pos h, if_neg h'] at same
      exact absurd same.symm (new y' hy')
    · rw [if_neg h] at hy
      rw [if_neg h, if_pos h'] at same
      exact absurd same (new y hy)
    · rw [if_neg h] at hy
      rw [if_neg h'] at hy'
      rw [if_neg h, if_neg h'] at same
      exact distinct y y' hy hy' same

/-! ### Sponsors (R82, R99) -/

theorem responsor_state (y z : Station) (e : MemberEntry) : (responsor y z e).state = e.state := by
  unfold responsor
  split <;> rfl

theorem responsor_place (y z : Station) (e : MemberEntry) : (responsor y z e).joinPlace = e.joinPlace := by
  unfold responsor
  split <;> rfl

theorem responsor_sponsor (y z : Station) {e : MemberEntry} (join : e.state = .joining) :
    (responsor y z e).sponsor = if e.sponsor = some y then some z else e.sponsor := by
  unfold responsor
  by_cases h : e.sponsor = some y <;> simp [join, h]

/-- The joiners of y are handed on to the MEMBER z (R82). -/
theorem TableOk.responsor {y z : Station} (ok : TableOk (some y) t) (member : t[z].state = .member) :
    TableOk none (t.map (responsor y z)) := by
  obtain ⟨sponsored, placed, others, distinct⟩ := ok
  have count : joiningCount (t.map (Machine.responsor y z)) = joiningCount t := by
    rw [joiningCount_eq, joiningCount_eq]
    congr 1
    ext x
    rw [mem_joining, mem_joining, getElem_map_fin, responsor_state]
  refine ⟨fun x hx => ?_, fun x hx => ?_, fun x hx => ?_, fun x x' hx hx' same => ?_⟩
  · rw [getElem_map_fin, responsor_state] at hx
    rw [getElem_map_fin, responsor_sponsor y z hx]
    obtain ⟨w, sponsor, its⟩ := sponsored x hx
    split
    · exact ⟨z, rfl, .inl (by rw [getElem_map_fin, responsor_state]; exact member)⟩
    · rename_i other
      refine ⟨w, sponsor, .inl ?_⟩
      rw [getElem_map_fin, responsor_state]
      exact its.resolve_right fun eq => other (sponsor.trans eq.symm)
  · rw [getElem_map_fin, responsor_state] at hx
    rw [getElem_map_fin, responsor_place, count]
    exact placed x hx
  · rw [getElem_map_fin, responsor_state] at hx
    rw [getElem_map_fin, Machine.responsor, if_neg fun h => hx h.1]
    exact others x hx
  · rw [getElem_map_fin, responsor_state] at hx hx'
    rw [getElem_map_fin, getElem_map_fin, responsor_place, responsor_place] at same
    exact distinct x x' hx hx' same

theorem lowestMember_some {z : Station} (h : lowestMember t = some z) : t[z].state = .member := by
  have := List.find?_some h
  simpa [isMember] using this

theorem lowestMember_none (h : lowestMember t = none) (x : Station) : t[x].state ≠ .member := by
  have := List.find?_eq_none.1 h x (List.mem_finRange x)
  simpa [isMember] using this

/-- The joiners of y are the JOINING stations it sponsors (R82). -/
theorem mem_joinersOf {y : Station} {gone : Option Station} (ok : TableOk gone t) :
    x ∈ joinersOf y t ↔ t[x].state = .joining ∧ t[x].sponsor = some y := by
  unfold joinersOf
  rw [List.mem_filterMap]
  constructor
  · rintro ⟨p, -, found⟩
    have := List.find?_some found
    simp only [Bool.and_eq_true, beq_iff_eq] at this
    exact this.1
  · rintro ⟨join, sponsor⟩
    obtain ⟨p, place, below⟩ := ok.placed x join
    refine ⟨p, List.mem_range.2 (below.trans_le (joiningCount_le t)), ?_⟩
    cases found : stations.find? fun x => t[x].state == .joining && t[x].sponsor == some y && t[x].joinPlace == some p with
    | none =>
      have := List.find?_eq_none.1 found x (List.mem_finRange x)
      simp [-Fin.getElem_fin, join, sponsor, place] at this
    | some x' =>
      have := List.find?_some found
      simp only [Bool.and_eq_true, beq_iff_eq] at this
      rw [ok.distinct x' x this.1.1 join (this.2.trans place.symm)]

theorem joinersOf_nodup (y : Station) (t : Vector MemberEntry 16) : (joinersOf y t).Nodup := by
  refine List.nodup_range.filterMap fun p p' x hp hp' => ?_
  have h := List.find?_some hp
  have h' := List.find?_some hp'
  simp only [Bool.and_eq_true, beq_iff_eq] at h h'
  exact Option.some.inj (h.2.symm.trans h'.2)

/-- The law of the sponsor list of station n against the Membership Table (R99). -/
def SponsorOk (n : Station) (t : Vector MemberEntry 16) (js : List Station) : Prop :=
  js.Nodup ∧ ∀ x : Station, x ∈ js ↔ t[x].state = .joining ∧ t[x].sponsor = some n

theorem SponsorOk.of_same {n : Station} {js : List Station} (ok : SponsorOk n t js) (same : SameEntries t t') :
    SponsorOk n t' js := by
  have state := fun x => (same x).1
  have sponsor := fun x => (same x).2.1
  simpa only [SponsorOk, state, sponsor] using ok

theorem SponsorOk.leave {n : Station} {js : List Station} {e : MemberEntry} (ok : SponsorOk n t js)
    (left : e.state ≠ .joining) : SponsorOk n (leaveJoinOrder x e t) (js.filter (· != x)) := by
  refine ⟨ok.1.filter _, fun y => ?_⟩
  rw [List.mem_filter, ok.2, bne_iff_ne, leaveJoinOrder_getElem]
  by_cases h : y = x <;> simp [-Fin.getElem_fin, h, left]

theorem SponsorOk.join {n z : Station} {js : List Station} (ok : SponsorOk n t js) (absent : t[x].state = .absent)
    (q : Seq) :
    SponsorOk n (makeJoining x q z t) (if z = n then js ++ [x] else js) := by
  have entry : ∀ y : Station, (makeJoining x q z t)[y] = if y = x then
      { state := .joining, lastSeq := q, sponsor := some z, joinPlace := some (joiningCount t) } else t[y] :=
    fun y => getElem_set_fin t x y _
  have new : x ∉ js := fun mem => by
    have := ((ok.2 x).1 mem).1
    rw [absent] at this
    cases this
  split
  · refine ⟨by simpa [List.nodup_append, ok.1] using fun y hy (eq : y = x) => new (eq ▸ hy), fun y => ?_⟩
    rw [List.mem_append, ok.2, List.mem_singleton, entry]
    by_cases h : y = x <;> simp [-Fin.getElem_fin, *]
  · rename_i other
    refine ⟨ok.1, fun y => ?_⟩
    rw [ok.2, entry]
    by_cases h : y = x <;> simp [-Fin.getElem_fin, h, absent, other]

theorem SponsorOk.responsor {n y z : Station} {js : List Station} {gone : Option Station} (ok : SponsorOk n t js)
    (table : TableOk gone t) (other : z ≠ y) :
    SponsorOk n (t.map (responsor y z)) ((if y = n then [] else js) ++ if z = n then joinersOf y t else []) := by
  obtain ⟨nodup, mem⟩ := ok
  constructor
  · rw [List.nodup_append]
    refine ⟨by split <;> simp [nodup], by split <;> simp [joinersOf_nodup], fun a ha b hb eq => ?_⟩
    subst eq
    split at hb
    · rename_i mine
      rw [if_neg fun eq => other (mine.trans eq.symm), mem] at ha
      rw [mem_joinersOf table, ha.2, Option.some.injEq] at hb
      exact other (mine.trans hb.2)
    · exact absurd hb List.not_mem_nil
  · intro x
    rw [List.mem_append, getElem_map_fin, responsor_state]
    by_cases join : t[x].state = .joining
    · rw [responsor_sponsor y z join]
      by_cases h1 : t[x].sponsor = some y <;> by_cases h2 : y = n <;> by_cases h3 : z = n <;>
        simp_all [-Fin.getElem_fin, mem_joinersOf table]
    · have out : x ∉ js := fun h => join ((mem x).1 h).1
      by_cases h2 : y = n <;> by_cases h3 : z = n <;> simp [-Fin.getElem_fin, h2, h3, join, out, mem_joinersOf table]

end Sys2Proof.Machine
end

section
/-! The law of the replicated tables at each operation that touches them: locks, removals, joins, fills, departures. -/

namespace Sys2Proof.Machine

open Sys2Proof.Safety

/-! ### The images of a SNAPSTATE (R107) -/

/-- Images that agree with each other are tables within their laws (R107). -/
theorem tableOk_of_memberImageOk {sender target : Station} {t : Vector MemberEntry 16}
    (h : memberImageOk sender target t = true) : TableOk none t := by
  simp only [memberImageOk, Bool.and_eq_true, List.all_eq_true, Vector.mem_toList_iff, List.mem_range] at h
  obtain ⟨⟨-, entries⟩, places⟩ := h
  have each : ∀ x : Station, t[x] ∈ t := fun x => Vector.getElem_mem _
  have at_place : ∀ p < joiningCount t,
      ∃ x : Station, ∀ y : Station, t[y].state = .joining ∧ t[y].joinPlace = some p ↔ y = x := fun p hp => by
    have count := places p hp
    rw [beq_iff_eq, countP_toList, Finset.card_eq_one] at count
    obtain ⟨x, only⟩ := count
    refine ⟨x, fun y => ?_⟩
    have := Finset.ext_iff.1 only y
    simpa [-Fin.getElem_fin] using this
  choose holder holds using at_place
  -- as many places as JOINING stations: every one of them stands at a place
  have all_placed : ∀ x ∈ joining t, ∃ p, ∃ hp : p < joiningCount t, holder p hp = x := by
    have inj : Function.Injective fun p : Fin (joiningCount t) => holder p p.isLt := fun p p' eq => by
      have hp := ((holds p p.isLt) _).2 rfl
      have hp' := ((holds p' p'.isLt) _).2 eq
      exact Fin.ext (Option.some.inj (hp.2.symm.trans hp'.2))
    have into : ∀ p : Fin (joiningCount t), holder p p.isLt ∈ joining t := fun p =>
      mem_joining.2 (((holds p p.isLt) _).2 rfl).1
    have onto : Finset.univ.image (fun p : Fin (joiningCount t) => holder p p.isLt) = joining t := by
      refine Finset.eq_of_subset_of_card_le ?_ ?_
      · intro x hx
        obtain ⟨p, -, rfl⟩ := Finset.mem_image.1 hx
        exact into p
      · rw [Finset.card_image_of_injective _ inj, Finset.card_univ, Fintype.card_fin, joiningCount_eq]
    intro x hx
    rw [← onto] at hx
    obtain ⟨p, -, eq⟩ := Finset.mem_image.1 hx
    exact ⟨p, p.isLt, eq⟩
  refine ⟨fun x hx => ?_, fun x hx => ?_, fun x hx => ?_, fun x y hx hy same => ?_⟩
  · have := entries _ (each x)
    rw [hx] at this
    cases sponsor : t[x].sponsor with
    | none => simp [-Fin.getElem_fin, sponsor] at this
    | some y =>
      simp only [sponsor, beq_iff_eq] at this
      exact ⟨y, rfl, .inl this⟩
  · obtain ⟨p, hp, rfl⟩ := all_placed x (mem_joining.2 hx)
    exact ⟨p, (((holds p hp) _).2 rfl).2, hp⟩
  · have := entries _ (each x)
    cases state : t[x].state with
    | joining => exact absurd state hx
    | absent => simpa [-Fin.getElem_fin, state] using this
    | member => simpa [-Fin.getElem_fin, state] using this
  · obtain ⟨p, hp, rfl⟩ := all_placed x (mem_joining.2 hx)
    have its := (((holds p hp) _).2 rfl).2
    exact (((holds p hp) y).1 ⟨hy, same.symm.trans its⟩).symm

theorem regionOk_of_lockEntryOk {t : Vector MemberEntry 16} {e : RegionEntry} (h : lockEntryOk t e = true) :
    RegionOk t e := by
  simp only [lockEntryOk, Bool.and_eq_true, List.all_eq_true, decide_eq_true_eq, Bool.or_eq_true, List.isEmpty_iff,
    beq_iff_eq, Option.all_eq_true, Bool.not_eq_true', List.contains_eq_mem, decide_eq_false_iff_not] at h
  obtain ⟨⟨⟨⟨holder, waiters⟩, nodup⟩, -⟩, free⟩ := h
  exact ⟨holder, waiters, nodup, fun none => free.resolve_left (by simp [none])⟩

theorem locksOk_of_imagesAgree {sender target : Station} {im : Images} (h : imagesAgree sender target im = true) :
    LocksOk im.members im.locks := by
  simp only [imagesAgree, Bool.and_eq_true, List.all_eq_true, Vector.mem_toList_iff] at h
  exact fun r => regionOk_of_lockEntryOk (h.2 _ (Vector.getElem_mem _))

/-! ### The law, with a station's joiners still to be handed on -/

/-- The law of the replicated tables, but that a sponsor may be the station `gone`. -/
structure GroupOk (gone : Option Station) (s : State) : Prop where
  locks : LocksOk s.mship.table s.locks
  table : TableOk gone s.mship.table
  sponsor : SponsorOk s.straps.number s.mship.table s.sponsor.joiners
  own : OwnEntryLaw s

theorem groupLaw_iff (s : State) : GroupLaw s ↔ GroupOk none s :=
  ⟨fun ⟨locks, table, sponsor, own⟩ => ⟨locks, (tableLaw_iff s).1 table, sponsor, own⟩,
    fun ⟨locks, table, sponsor, own⟩ => ⟨locks, (tableLaw_iff s).2 table, sponsor, own⟩⟩

/-- What the law reads is the same in both states, of the Transmit Selector as far as the law reads it. -/
structure GroupSame (s t : State) : Prop where
  straps : t.straps = s.straps
  locks : t.locks = s.locks
  state : t.mship.state = s.mship.state
  table : t.mship.table = s.mship.table
  joiners : t.sponsor.joiners = s.sponsor.joiners
  leave : LeaveQueued t.tx → LeaveQueued s.tx
  slot : SlotOwn s.straps.number s.tx → SlotOwn s.straps.number t.tx

theorem GroupSame.refl (s : State) : GroupSame s s := ⟨rfl, rfl, rfl, rfl, rfl, id, id⟩

theorem GroupSame.trans {s t u : State} (h : GroupSame s t) (k : GroupSame t u) : GroupSame s u :=
  ⟨k.straps.trans h.straps, k.locks.trans h.locks, k.state.trans h.state, k.table.trans h.table,
    k.joiners.trans h.joiners, h.leave ∘ k.leave, fun own => h.straps ▸ k.slot (h.straps.symm ▸ h.slot own)⟩

/-- A run without leave to touch the replicated tables leaves what their law reads. -/
theorem Moves.groupSame {a : Allowed} {s t : State} (h : Moves a s t) (not : ¬ a.tables) : GroupSame s t := by
  refine h.keeps (GroupSame s) (fun u v m same => same.trans ?_) (.refl s)
  cases m with
  | tx x _ leave own =>
    exact ⟨rfl, rfl, rfl, rfl, rfl, fun h => (leave h).resolve_right not, fun h => (own _ h).resolve_right (not_not.2 rfl)⟩
  | timers x state table => exact ⟨rfl, rfl, state, table, rfl, id, id⟩
  | locks x may => exact absurd may not
  | mship x may => exact absurd may not
  | sponsor x may => exact absurd may not
  | _ => exact ⟨rfl, rfl, rfl, rfl, rfl, id, id⟩

theorem GroupOk.of_same {gone : Option Station} {s t : State} (ok : GroupOk gone s) (same : GroupSame s t) :
    GroupOk gone t := by
  obtain ⟨straps, locks, state, table, joiners, leave, slot⟩ := same
  obtain ⟨okl, okt, oks, member, filling, leaving, noTable, inLeaving, slotOwn⟩ := ok
  refine ⟨by rw [table, locks]; exact okl, by rw [table]; exact okt, by rw [straps, table, joiners]; exact oks,
    ?_, ?_, ?_, ?_, fun h => ?_, ?_⟩
  · simpa only [state, table, straps] using member
  · simpa only [state, table, straps] using filling
  · simpa only [state, table, straps] using leaving
  · simpa only [state, table] using noTable
  · rw [state]
    exact inLeaving (leave h)
  · rw [straps]
    exact slot slotOwn

/-- No leave for anything but what every command may do. -/
def Allowed.none : Allowed := ⟨False, False, False⟩

/-- Leave for the reference sender and the watch set alone. -/
def Allowed.noTables : Allowed := ⟨False, True, True⟩

theorem GroupOk.moves {gone : Option Station} {s t : State} (ok : GroupOk gone s) (h : Moves .noTables s t) :
    GroupOk gone t :=
  ok.of_same (h.groupSame id)

/-! ### The own entry -/

/-- The law of this station's own entry holds on where the station state holds a table and stands, and the own entry stays in
its entry state, or is gone at a LEAVING station. -/
theorem ownEntryLaw_of {s t : State} (ok : OwnEntryLaw s) (holder : isHolder s.mship.state = true)
    (straps : t.straps = s.straps) (tx : t.tx = s.tx) (state : t.mship.state = s.mship.state)
    (entry : t.mship.table[s.straps.number].state = s.mship.table[s.straps.number].state
      ∨ s.mship.state = .leaving ∧ t.mship.table[s.straps.number].state ≠ .joining) : OwnEntryLaw t := by
  obtain ⟨member, filling, leaving, -, inLeaving, slot⟩ := ok
  have stays : s.mship.state ≠ .leaving → t.mship.table[s.straps.number].state = s.mship.table[s.straps.number].state :=
    fun other => entry.resolve_right fun h => other h.1
  simp only [OwnEntryLaw, straps, tx, state]
  refine ⟨fun h => ?_, fun h => ?_, fun h => ?_, fun h => ?_, inLeaving, slot⟩
  · rw [stays (by rw [h]; nofun)]
    exact member h
  · rw [stays (by rw [h]; nofun)]
    exact filling h
  · obtain same | gone := entry
    · rw [same]
      exact leaving h
    · exact gone.2
  · rw [holder] at h
    cases h

@[simp] theorem changeTable_table (t : Vector MemberEntry 16) (s : State) : (changeTable t s).mship.table = t := rfl
@[simp] theorem changeTable_state (t : Vector MemberEntry 16) (s : State) : (changeTable t s).mship.state
    = s.mship.state := rfl
@[simp] theorem changeTable_straps (t : Vector MemberEntry 16) (s : State) : (changeTable t s).straps = s.straps := rfl
@[simp] theorem changeTable_locks (t : Vector MemberEntry 16) (s : State) : (changeTable t s).locks = s.locks := rfl
@[simp] theorem changeTable_sponsor (t : Vector MemberEntry 16) (s : State) : (changeTable t s).sponsor = s.sponsor := rfl
@[simp] theorem changeTable_tx (t : Vector MemberEntry 16) (s : State) : (changeTable t s).tx = s.tx := rfl

/-- A state whose table and sponsor list are replaced, at a table holder. -/
theorem GroupOk.replace {gone gone' : Option Station} {s t : State} (ok : GroupOk gone s)
    (holder : isHolder s.mship.state = true) (straps : t.straps = s.straps) (locks : t.locks = s.locks) (tx : t.tx = s.tx)
    (state : t.mship.state = s.mship.state) (table : TableOk gone' t.mship.table)
    (members : ∀ y, s.mship.table[y].state = .member → t.mship.table[y].state = .member ∨ ∀ r : Region, FreeOf y s.locks[r])
    (sponsor : SponsorOk s.straps.number t.mship.table t.sponsor.joiners)
    (entry : t.mship.table[s.straps.number].state = s.mship.table[s.straps.number].state
      ∨ s.mship.state = .leaving ∧ t.mship.table[s.straps.number].state ≠ .joining) : GroupOk gone' t :=
  ⟨by rw [locks]; exact ok.locks.of_members members, table, by rw [straps]; exact sponsor,
    ownEntryLaw_of ok.own holder straps tx state entry⟩

/-! ### Departure -/

/-- A departure leaves empty tables (R94). -/
theorem depart_groupOk (r : DepartReason) (s : State) : GroupOk none (depart r s) := by
  rw [depart_eq_giveUpGroup]
  generalize departNotices r s = u
  have empty : ∀ x : Station, (Vector.replicate 16 absentEntry)[x] = absentEntry := getElem_replicate_fin _
  have left : isHolder (departMembership r u.mship).state = false := by
    unfold departMembership
    split <;> rfl
  have kept : ¬ LeaveQueued (departTransmit (rejoins r u.mship) u.tx) := by
    unfold LeaveQueued departTransmit
    split <;> simp
  refine ⟨locksOk_free _, ?_, ?_, ?_, ?_, ?_, ?_, fun q => absurd q kept, fun sl held => by cases held⟩
  · exact tableOk_of_no_joiner (t := Vector.replicate 16 absentEntry) (fun x => by rw [empty]; nofun)
      fun x => by rw [empty]; exact ⟨rfl, rfl⟩
  · refine ⟨List.nodup_nil, fun x => ⟨nofun, fun h => ?_⟩⟩
    have := h.1
    rw [show (giveUpGroup r u).mship.table[x] = absentEntry from empty x] at this
    cases this
  · intro h
    rw [show (giveUpGroup r u).mship.state = (departMembership r u.mship).state from rfl] at h
    rw [h] at left
    cases left
  · intro h
    rw [show (giveUpGroup r u).mship.state = (departMembership r u.mship).state from rfl] at h
    rw [h] at left
    cases left
  · intro h
    rw [show (giveUpGroup r u).mship.state = (departMembership r u.mship).state from rfl] at h
    rw [h] at left
    cases left
  · exact fun _ x => by rw [show (giveUpGroup r u).mship.table[x] = absentEntry from empty x]; rfl

/-! ### The Lock Table -/

theorem GroupOk.withLocks {gone : Option Station} {s : State} {l : Vector RegionEntry 16} (ok : GroupOk gone s)
    (locks : LocksOk s.mship.table l) : GroupOk gone (s.withLocks l) := ⟨locks, ok.table, ok.sponsor, ok.own⟩

theorem releaseLocks_groupOk {s : State} (x : Station) (ok : GroupOk none s) : GroupOk none (releaseLocks x s) :=
  (ok.withLocks (ok.locks.yieldAll x)).moves (completeGrants_moves _ _)

theorem applyClaim_groupOk {s : State} (x : Station) (r : Region) (ok : GroupOk none s) :
    GroupOk none (applyClaim x r s) := by
  unfold applyClaim
  split
  · rename_i member
    have claimed := ok.withLocks (ok.locks.set (r := r) ((ok.locks r).claim (x := x) (by simpa [isMember] using member)))
    dsimp only
    split
    · exact claimed.moves (completeFor_moves _ _ _ _)
    · exact claimed
  · exact ok

theorem applyYield_groupOk {s : State} (x : Station) (r : Region) (ok : GroupOk none s) : GroupOk none (applyYield x r s) :=
  (ok.withLocks (ok.locks.set ((ok.locks r).yield x))).moves (completeGrants_moves _ _)

theorem applyOwnYield_groupOk {s : State} (ticket : Option TicketNo) (r : Region) (ok : GroupOk none s) :
    GroupOk none (applyOwnYield ticket r s) :=
  (ok.withLocks (ok.locks.set ((ok.locks r).yield _))).moves (completeYield_moves _ _ _ _)

theorem lockEffect_groupOk {s : State} (f : Frame) (ok : GroupOk none s) : GroupOk none (lockEffect f s) := by
  unfold lockEffect
  cases f.body with
  | claim r => exact applyClaim_groupOk _ r ok
  | yield r =>
    dsimp only
    split
    · exact ok
    · exact applyYield_groupOk _ r ok
  | leave =>
    dsimp only
    split
    · exact releaseLocks_groupOk _ ok
    · exact ok
  | drop t _ =>
    dsimp only
    split
    · exact releaseLocks_groupOk t ok
    · exact ok
  | join _ =>
    dsimp only
    split
    · exact releaseLocks_groupOk _ ok
    · exact ok
  | _ => exact ok

/-! ### Sequences, sponsor list, reassignment -/

theorem recordSeq_groupOk {s : State} (x : Station) (q : Seq) (ok : GroupOk none s)
    (holder : isHolder s.mship.state = true) :
    GroupOk none (recordSeq x q s) := by
  unfold recordSeq
  split
  · have same := sameEntries_setSeq s.mship.table x q
    exact ok.replace holder rfl rfl rfl rfl (ok.table.of_same same) (fun y hy => .inl ((same y).1.trans hy))
      (ok.sponsor.of_same same) (.inl (same _).1)
  · exact ok

theorem sponsorForget_joiners (x : Station) {s : State} (nodup : s.sponsor.joiners.Nodup) :
    (sponsorForget x s).sponsor.joiners = s.sponsor.joiners.filter (· != x) := by
  unfold sponsorForget
  split
  · rename_i head
    cases list : s.sponsor.joiners with
    | nil => rw [list] at head; cases head
    | cons y ys =>
      rw [list] at head nodup
      obtain rfl := Option.some.inj head
      have absent : ∀ z ∈ ys, (z != y) = true := fun z hz => by
        rw [bne_iff_ne]
        rintro rfl
        exact (List.nodup_cons.1 nodup).1 hz
      rw [State.withSponsor_sponsor, List.filter_cons_of_neg (by simp), List.filter_eq_self.2 absent]
      rfl
  · rfl

/-- Forgetting a joiner touches the sponsor list alone. -/
theorem sponsorForget_changes (x : Station) (s : State) : ∃ u, sponsorForget x s = s.withSponsor u := by
  unfold sponsorForget
  split <;> exact ⟨_, rfl⟩

theorem makeAbsent_state (x y : Station) (t : Vector MemberEntry 16) :
    (makeAbsent x t)[y].state = if y = x then .absent else t[y].state := by
  unfold makeAbsent
  rw [leaveJoinOrder_getElem]
  split <;> rfl

/-- The joiners of a station, with no MEMBER left, are removed one by one (R95). -/
theorem foldl_makeAbsent_state (xs : List Station) (t : Vector MemberEntry 16) (y : Station) :
    (xs.foldl (fun t x => makeAbsent x t) t)[y].state = if y ∈ xs then .absent else t[y].state := by
  induction xs generalizing t with
  | nil => simp
  | cons x xs ih =>
    rw [List.foldl_cons, ih, makeAbsent_state]
    by_cases h : y ∈ xs <;> by_cases h' : y = x <;> simp [-Fin.getElem_fin, h, h']

theorem makeAbsent_clear {x y : Station} {t : Vector MemberEntry 16}
    (h : t[y].state ≠ .joining → t[y].sponsor = none ∧ t[y].joinPlace = none) :
    (makeAbsent x t)[y].state ≠ .joining → (makeAbsent x t)[y].sponsor = none ∧ (makeAbsent x t)[y].joinPlace = none := by
  unfold makeAbsent
  rw [leaveJoinOrder_getElem]
  split
  · exact fun _ => ⟨rfl, rfl⟩
  · exact fun other => ⟨(h other).1, by rw [(h other).2]; rfl⟩

theorem foldl_makeAbsent_clear (xs : List Station) {t : Vector MemberEntry 16} {y : Station}
    (h : t[y].state ≠ .joining → t[y].sponsor = none ∧ t[y].joinPlace = none) :
    (xs.foldl (fun t x => makeAbsent x t) t)[y].state ≠ .joining →
      (xs.foldl (fun t x => makeAbsent x t) t)[y].sponsor = none
        ∧ (xs.foldl (fun t x => makeAbsent x t) t)[y].joinPlace = none := by
  induction xs generalizing t with
  | nil => exact h
  | cons x xs ih => exact ih (makeAbsent_clear h)

/-- Without any MEMBER every JOINING station is a joiner of y, and all go (R95). -/
theorem TableOk.no_member_left {y : Station} {t : Vector MemberEntry 16} (ok : TableOk (some y) t)
    (none_left : ∀ x : Station, t[x].state ≠ .member) :
    let t' := (joinersOf y t).foldl (fun t x => makeAbsent x t) t
    TableOk none t' ∧ ∀ x : Station, t'[x].state ≠ .joining := by
  have gone : ∀ x : Station, ((joinersOf y t).foldl (fun t x => makeAbsent x t) t)[x].state ≠ .joining := fun x => by
    rw [foldl_makeAbsent_state]
    split
    · nofun
    · rename_i other
      intro join
      obtain ⟨z, sponsor, its⟩ := ok.sponsored x join
      obtain rfl := Option.some.inj (its.resolve_left (none_left z))
      exact other ((mem_joinersOf ok).2 ⟨join, sponsor⟩)
  exact ⟨tableOk_of_no_joiner gone fun x => foldl_makeAbsent_clear _ (ok.others x) (gone x), gone⟩

theorem joinersOf_state {y x : Station} {t : Vector MemberEntry 16} (ok : TableOk (some y) t) (h : x ∈ joinersOf y t) :
    t[x].state = .joining := ((mem_joinersOf ok).1 h).1

/-- The sponsor list at the start of a reassignment: this station's own list is emptied when its joiners are handed on. -/
def emptiedFor (y : Station) (s : State) : State :=
  if y = self s then s.withSponsor { joiners := [], cursor := 0 } else s

theorem emptiedFor_changes (y : Station) (s : State) :
    ∃ u, emptiedFor y s = s.withSponsor u ∧ u.joiners = if y = s.straps.number then [] else s.sponsor.joiners := by
  unfold emptiedFor self
  split
  · exact ⟨_, rfl, rfl⟩
  · exact ⟨s.sponsor, rfl, rfl⟩

theorem reassign_some {y z : Station} {s : State} (h : lowestMember s.mship.table = some z) :
    ∃ u, reassign y s = (changeTable (s.mship.table.map (responsor y z)) s).withSponsor u ∧
      u.joiners = (if y = s.straps.number then [] else s.sponsor.joiners)
        ++ if z = s.straps.number then joinersOf y s.mship.table else [] := by
  have e : reassign y s =
      if z = self s then sponsorAppend (joinersOf y s.mship.table)
        (changeTable (s.mship.table.map (responsor y z)) (emptiedFor y s))
      else changeTable (s.mship.table.map (responsor y z)) (emptiedFor y s) := by
    unfold reassign emptiedFor
    split <;> dsimp only [State.withSponsor_mship, self, State.withSponsor_straps] <;> rw [h] <;> rfl
  obtain ⟨u, hu, list⟩ := emptiedFor_changes y s
  rw [e, hu, self]
  split
  · exact ⟨{ u with joiners := u.joiners ++ joinersOf y s.mship.table }, rfl, by rw [list]⟩
  · exact ⟨u, rfl, by rw [list, List.append_nil]⟩

theorem reassign_none {y : Station} {s : State} (h : lowestMember s.mship.table = none) :
    ∃ u, reassign y s = (changeTable
      ((joinersOf y s.mship.table).foldl (fun t x => makeAbsent x t) s.mship.table) s).withSponsor u
      ∧ u.joiners = if y = s.straps.number then [] else s.sponsor.joiners := by
  have e : reassign y s =
      changeTable ((joinersOf y s.mship.table).foldl (fun t x => makeAbsent x t) s.mship.table) (emptiedFor y s) := by
    unfold reassign emptiedFor
    split <;> dsimp only [State.withSponsor_mship] <;> rw [h]
  obtain ⟨u, hu, list⟩ := emptiedFor_changes y s
  rw [e, hu]
  exact ⟨u, rfl, list⟩

/-- The joiners of a station that has left MEMBER are handed on, at a station that has a MEMBER left or is not FILLING
(R82). -/
theorem reassign_groupOk {y : Station} {s : State} (ok : GroupOk (some y) s) (holder : isHolder s.mship.state = true)
    (left : s.mship.table[y].state ≠ .member) (place : ¬ (s.mship.state = .filling ∧ noMember s.mship.table = true)) :
    GroupOk none (reassign y s) := by
  cases lowest : lowestMember s.mship.table with
  | some z =>
    have member := lowestMember_some lowest
    have other : z ≠ y := fun eq => left (eq ▸ member)
    obtain ⟨u, e, list⟩ := reassign_some (y := y) lowest
    rw [e]
    refine ok.replace holder rfl rfl rfl rfl (ok.table.responsor member) (fun x hx => .inl ?_) ?_ (.inl ?_)
    · show (s.mship.table.map (responsor y z))[x].state = .member
      rw [getElem_map_fin, responsor_state]
      exact hx
    · rw [State.withSponsor_sponsor, list]
      exact ok.sponsor.responsor ok.table other
    · show (s.mship.table.map (responsor y z))[s.straps.number].state = _
      rw [getElem_map_fin, responsor_state]
  | none =>
    have none_left := lowestMember_none lowest
    obtain ⟨table, gone⟩ := ok.table.no_member_left none_left
    obtain ⟨u, e, list⟩ := reassign_none (y := y) lowest
    rw [e]
    refine ok.replace holder rfl rfl rfl rfl table (fun x hx => absurd hx (none_left x)) ?_ ?_
    · rw [State.withSponsor_sponsor, list]
      have empty : (if y = s.straps.number then [] else s.sponsor.joiners) = [] := by
        split
        · rfl
        · rename_i other
          rw [List.eq_nil_iff_forall_not_mem]
          intro x hx
          obtain ⟨join, sponsor⟩ := (ok.sponsor.2 x).1 hx
          obtain ⟨w, its, who⟩ := ok.table.sponsored x join
          obtain rfl := Option.some.inj (who.resolve_left (none_left w))
          exact other (Option.some.inj (its.symm.trans sponsor))
      rw [empty]
      exact ⟨List.nodup_nil, fun x => ⟨nofun, fun h => absurd h.1 (gone x)⟩⟩
    · obtain ⟨member, filling, leaving, -⟩ := ok.own
      cases state : s.mship.state with
      | member => exact absurd (member state) (none_left _)
      | filling => exact absurd ⟨state, by rw [noMember, lowest]; rfl⟩ place
      | leaving => exact .inr ⟨rfl, gone _⟩
      | _ => rw [state] at holder; cases holder

end Sys2Proof.Machine
end

section
/-! The law of the replicated tables at the frames that change the membership, and at every frame that is applied. -/

namespace Sys2Proof.Machine

open Sys2Proof.Safety

/-! ### Removals (R87, R89) -/

theorem GroupOk.postNotice {gone : Option Station} {s : State} {n : Notice} (ok : GroupOk gone s)
    (plain : plainNotice n = true) : GroupOk gone (postNotice n s) := ok.moves (postNotice_moves plain s)

/-- What follows a removal restores the law: the joiners of a MEMBER are handed on, or the station departs (R82, R95). -/
theorem afterRemoval_groupOk {x : Station} {wasMember : Bool} {s : State} (reason : OutReason)
    (ok : GroupOk (if wasMember then some x else none) s) (holder : isHolder s.mship.state = true)
    (left : s.mship.table[x].state ≠ .member) : GroupOk none (afterRemoval x wasMember reason s) := by
  unfold afterRemoval
  split
  · exact depart_groupOk _ s
  · rename_i place
    dsimp only
    refine GroupOk.postNotice ?_ rfl
    cases wasMember with
    | false => exact ok
    | true => exact (reassign_groupOk ok holder left place).moves (mendPeerLost_moves x _)

/-- A station whose entry is made ABSENT, out of the sponsor list too. -/
theorem removed_groupOk {x : Station} {s t : State} {gone : Option Station} (ok : GroupOk none s)
    (holder : isHolder s.mship.state = true)
    (released : s.mship.table[x].state = .member → ∀ r : Region, FreeOf x s.locks[r])
    (joiners : s.mship.table[x].state = .member → gone = some x)
    (place : x ≠ s.straps.number ∨ s.mship.state = .leaving)
    (straps : t.straps = s.straps) (locks : t.locks = s.locks) (tx : t.tx = s.tx) (state : t.mship.state = s.mship.state)
    (table : t.mship.table = makeAbsent x s.mship.table)
    (list : t.sponsor.joiners = s.sponsor.joiners.filter (· != x)) : GroupOk gone t := by
  refine ok.replace holder straps locks tx state ?_ (fun y hy => ?_) ?_ ?_
  · rw [table]
    exact ok.table.leave nofun ⟨rfl, rfl⟩ fun h => .inr (joiners h)
  · rw [table, makeAbsent_state]
    split
    · subst y
      exact .inr (released hy)
    · exact .inl hy
  · rw [table, list]
    exact ok.sponsor.leave nofun
  · rw [table, makeAbsent_state]
    split
    · rename_i eq
      exact .inr ⟨place.resolve_left fun other => other eq.symm, nofun⟩
    · exact .inl rfl

theorem expel_groupOk {x : Station} {s : State} (reason : OutReason) (ok : GroupOk none s)
    (holder : isHolder s.mship.state = true) (other : x ≠ s.straps.number)
    (released : s.mship.table[x].state = .member → ∀ r : Region, FreeOf x s.locks[r]) :
    GroupOk none (expel x reason s) := by
  -- the timer and the queued DROPs go by moves, the entry and the place in the sponsor list by the law
  have quiet : GroupOk none (withdrawDrops x (setSilence x none s)) :=
    (ok.moves (setSilence_moves x none s)).moves (withdrawDrops_moves x _)
  obtain ⟨u, hu⟩ := sponsorForget_changes x
    (withdrawDrops x (setSilence x none (changeTable (makeAbsent x s.mship.table) s)))
  have list := sponsorForget_joiners x
    (s := withdrawDrops x (setSilence x none (changeTable (makeAbsent x s.mship.table) s))) ok.sponsor.1
  unfold expel
  dsimp only
  rw [hu] at list ⊢
  refine afterRemoval_groupOk reason ?_ holder ?_
  · refine removed_groupOk quiet holder released (fun h => ?_) (.inl other) rfl rfl rfl rfl rfl list
    have member : isMember s.mship.table x = true := beq_iff_eq.2 h
    rw [member]
    rfl
  · show (makeAbsent x s.mship.table)[x].state ≠ .member
    rw [makeAbsent_state, if_pos rfl]
    nofun

theorem applyDrop_groupOk {sender target : Station} {s : State} (reason : DropReason) (ok : GroupOk none s)
    (holder : isHolder s.mship.state = true)
    (released : isMember s.mship.table sender = true → target ≠ s.straps.number → s.mship.table[target].state = .member →
      ∀ r : Region, FreeOf target s.locks[r]) : GroupOk none (applyDrop sender target reason s) := by
  unfold applyDrop
  split_ifs with member mine
  · exact depart_groupOk _ s
  · exact expel_groupOk _ ok holder mine (released member mine)
  · exact ok
  · exact ok

/-- This station's own LEAVE, at a LEAVING station (R88). -/
theorem applyOwnLeave_groupOk {s : State} (ok : GroupOk none s) (leaving : s.mship.state = .leaving)
    (released : s.mship.table[s.straps.number].state = .member → ∀ r : Region, FreeOf s.straps.number s.locks[r]) :
    GroupOk none (applyOwnLeave s) := by
  have holder : isHolder s.mship.state = true := by rw [leaving]; rfl
  have gone : (makeAbsent s.straps.number s.mship.table)[s.straps.number].state = .absent := by
    rw [makeAbsent_state, if_pos rfl]
  refine reassign_groupOk ?_ holder ?_ fun h => absurd (leaving.symm.trans h.1) nofun
  · refine removed_groupOk ok holder released (fun _ => rfl) (.inr leaving) rfl rfl rfl rfl rfl ?_
    refine (List.filter_eq_self.2 fun x hx => ?_).symm
    rw [bne_iff_ne]
    rintro rfl
    exact ok.own.2.2.1 leaving ((ok.sponsor.2 _).1 hx).1
  · show (makeAbsent s.straps.number s.mship.table)[s.straps.number].state ≠ .member
    rw [gone]
    nofun

theorem applyLeave_groupOk {sender : Station} {s : State} (ok : GroupOk none s) (holder : isHolder s.mship.state = true)
    (own : sender = s.straps.number → s.mship.state = .leaving)
    (released : s.mship.table[sender].state = .member → ∀ r : Region, FreeOf sender s.locks[r]) :
    GroupOk none (applyLeave sender s) := by
  unfold applyLeave
  split_ifs with member mine
  · have mine : sender = s.straps.number := mine
    subst mine
    exact applyOwnLeave_groupOk ok (own rfl) released
  · exact expel_groupOk _ ok holder mine released
  · exact ok

/-! ### Joins (R81, R83) -/

theorem admitJoiner_groupOk {gone : Option Station} {x : Station} {s : State} (q : Seq) (ok : GroupOk gone s)
    (holder : isHolder s.mship.state = true) (other : x ≠ s.straps.number) (absent : s.mship.table[x].state = .absent) :
    GroupOk gone (admitJoiner x q s) := by
  unfold admitJoiner
  split
  · rename_i z lowest
    have member := lowestMember_some lowest
    have entry : ∀ y : Station, y ≠ x → (makeJoining x q z s.mship.table)[y] = s.mship.table[y] := fun y hy => by
      unfold makeJoining
      rw [getElem_set_fin, if_neg hy]
    have listed : ∃ u, (if z
      = self (changeTable (makeJoining x q z s.mship.table) s) then sponsorAppend [x]
        (changeTable (makeJoining x q z s.mship.table) s)
        else changeTable (makeJoining x q z s.mship.table) s)
          = (changeTable (makeJoining x q z s.mship.table) s).withSponsor u
          ∧ u.joiners = if z = s.straps.number then s.sponsor.joiners ++ [x] else s.sponsor.joiners := by
      by_cases mine : z = s.straps.number
      · exact ⟨_, if_pos mine, (if_pos mine).symm⟩
      · exact ⟨s.sponsor, if_neg mine, (if_neg mine).symm⟩
    obtain ⟨u, hu, list⟩ := listed
    refine GroupOk.moves ?_ (startSilence_moves x _)
    rw [hu]
    refine ok.replace holder rfl rfl rfl rfl (ok.table.join absent member q) (fun y hy => .inl ?_) ?_ (.inl ?_)
    · have differ : y ≠ x := by
        rintro rfl
        rw [absent] at hy
        cases hy
      exact (congrArg (·.state) (entry y differ)).trans hy
    · rw [State.withSponsor_sponsor, list]
      exact ok.sponsor.join absent q
    · exact congrArg (·.state) (entry _ other.symm)
  · exact ok

/-- An admission leaves the station state and every other entry. -/
theorem admitJoiner_state (x : Station) (q : Seq) (s : State) :
    (admitJoiner x q s).mship.state = s.mship.state ∧
      (s.mship.table[x].state ≠ .member → (admitJoiner x q s).mship.table[x].state ≠ .member) := by
  unfold admitJoiner
  split
  · rename_i z _
    have state : ∀ u : State, (startSilence x u).mship.state = u.mship.state
      ∧ (startSilence x u).mship.table = u.mship.table :=
      fun u => by
        unfold startSilence
        split <;> exact ⟨rfl, rfl⟩
    have new : (makeJoining x q z s.mship.table)[x].state ≠ .member := by
      unfold makeJoining
      rw [getElem_set_fin, if_pos rfl]
      nofun
    dsimp only
    rw [(state _).1, (state _).2]
    split
    · exact ⟨rfl, fun _ => new⟩
    · exact ⟨rfl, fun _ => new⟩
  · exact ⟨rfl, id⟩

theorem applyJoin_groupOk {x : Station} {s : State} (q : Seq) (rejoin : Bool) (ok : GroupOk none s)
    (holder : isHolder s.mship.state = true) (other : x ≠ s.straps.number)
    (released : s.mship.table[x].state = .member → ∀ r : Region, FreeOf x s.locks[r]) :
    GroupOk none (applyJoin x q rejoin s) := by
  have quiet : GroupOk none (withdrawDrops x (forgetStranger x s)) :=
    (ok.moves (apply_moves s _)).moves (withdrawDrops_moves x _)
  unfold applyJoin
  dsimp only
  split
  · rename_i absent
    exact admitJoiner_groupOk q quiet holder other absent
  · rename_i member
    have state := admitJoiner_state x q (changeTable (makeAbsent x (withdrawDrops x (forgetStranger x s)).mship.table)
      (setSilence x none (withdrawDrops x (forgetStranger x s))))
    have gone : (makeAbsent x s.mship.table)[x].state = .absent := by rw [makeAbsent_state, if_pos rfl]
    refine afterRemoval_groupOk _ (admitJoiner_groupOk q ?_ holder other gone) (by rw [state.1]; exact holder)
      (state.2 (by show (makeAbsent x s.mship.table)[x].state ≠ .member; rw [gone]; nofun))
    refine removed_groupOk (quiet.moves (setSilence_moves x none _)) holder released (fun _ => rfl) (.inl other)
      rfl rfl rfl rfl rfl (List.filter_eq_self.2 fun y hy => ?_).symm
    rw [bne_iff_ne]
    rintro rfl
    have join := ((ok.sponsor.2 y).1 hy).1
    exact absurd (join.symm.trans member) nofun
  · split
    · exact quiet.of_same ⟨rfl, rfl, rfl, rfl, rfl, id, id⟩
    · exact quiet

/-! ### Fills (R84, R108, R112) -/

theorem makeMember_state (x y : Station) (t : Vector MemberEntry 16) :
    (makeMember x t)[y].state = if y = x then .member else t[y].state := by
  unfold makeMember
  rw [leaveJoinOrder_getElem]
  split <;> rfl

theorem TableOk.makeMember {t : Vector MemberEntry 16} (x : Station) (ok : TableOk none t) : TableOk none (makeMember x t) :=
  ok.leave nofun ⟨rfl, rfl⟩ fun _ => .inl rfl

/-- A joiner's fill ends: what the law reads of the table and the sponsor list. -/
theorem endPeerFill_groupOk {x : Station} {s : State} (ok : GroupOk none s) (holder : isHolder s.mship.state = true)
    (other : x ≠ s.straps.number) : GroupOk none (endPeerFill x s) := by
  obtain ⟨u, hu⟩ := sponsorForget_changes x (changeTable (makeMember x s.mship.table) s)
  have list := sponsorForget_joiners x (s := changeTable (makeMember x s.mship.table) s) ok.sponsor.1
  refine GroupOk.postNotice ?_ rfl
  rw [hu] at list ⊢
  refine ok.replace holder rfl rfl rfl rfl (ok.table.makeMember x) (fun y hy => .inl ?_) ?_ (.inl ?_)
  · show (makeMember x s.mship.table)[y].state = .member
    rw [makeMember_state, hy, ite_self]
  · rw [list]
    exact ok.sponsor.leave nofun
  · show (makeMember x s.mship.table)[s.straps.number].state = _
    rw [makeMember_state, if_neg other.symm]

/-- What follows at the end of this station's own fill once it stands MEMBER in its table. -/
theorem endOwnFill_after {a : Allowed} (s : State) :
    Moves a (changeTable (makeMember (self s) s.mship.table) (setStation .member s)) (endOwnFill s) := by
  have started : Moves a (changeTable (makeMember (self s) s.mship.table) (setStation .member s))
    (startAllSilence (clearMarks
      (changeTable (makeMember (self s) (setStation .member s).mship.table) (setStation .member s)))) :=
    .tail (.single (.cells _)) (.timers _ rfl rfl)
  refine .trans (.trans (started.tail (.mend _ fun _ => ?_)) (completeJoin_moves .joined _)) (beginMend_moves _)
  exact ⟨damagedCells_nodup _, fun busy => absurd rfl busy⟩

theorem endOwnFill_groupOk {s : State} (ok : GroupOk none s) (filling : s.mship.state = .filling) :
    GroupOk none (endOwnFill s) := by
  refine GroupOk.moves ?_ (endOwnFill_after s)
  have state := fun y : Station => makeMember_state s.straps.number y s.mship.table
  refine ⟨ok.locks.of_members fun y hy => .inl ?_, ok.table.makeMember _, ?_, ?_⟩
  · show (makeMember s.straps.number s.mship.table)[y].state = .member
    rw [state, hy, ite_self]
  · have listed := ok.sponsor.leave (x := s.straps.number)
      (e := { s.mship.table[s.straps.number] with state := .member, sponsor := none, joinPlace := none }) nofun
    have out : s.sponsor.joiners.filter (· != s.straps.number) = s.sponsor.joiners := by
      refine List.filter_eq_self.2 fun x hx => ?_
      rw [bne_iff_ne]
      rintro rfl
      obtain ⟨join, sponsor⟩ := (ok.sponsor.2 _).1 hx
      obtain ⟨y, its, member⟩ := ok.table.sponsored _ join
      obtain rfl := Option.some.inj (sponsor.symm.trans its)
      exact absurd (join.symm.trans (member.resolve_right nofun)) nofun
    rw [out] at listed
    exact listed
  · obtain ⟨-, -, -, -, inLeaving, slot⟩ := ok.own
    refine ⟨fun _ => ?_, nofun, nofun, nofun, fun h => ?_, slot⟩
    · show (makeMember s.straps.number s.mship.table)[s.straps.number].state = .member
      rw [state, if_pos rfl]
    · exact absurd (filling.symm.trans (inLeaving h)) nofun

theorem applySnapCells_groupOk {s : State} (sender target : Station) (g : Group) (recs : Vector SnapRecord 8)
    (ok : GroupOk none s) (holder : isHolder s.mship.state = true) :
    GroupOk none (applySnapCells sender target g recs s) := by
  have filled : Moves .noTables s (applySnapRecords g recs s) := applySnapRecords_moves g recs s
  unfold applySnapCells
  dsimp only
  split_ifs with mine filling last
  · exact endOwnFill_groupOk (ok.moves filled) ((filled.groupSame id).state.trans filling.1)
  · exact ok.moves filled
  · exact ok
  · exact endPeerFill_groupOk ok holder mine
  · exact ok

/-- A fill begins with images that agree with each other (R107, R108). -/
theorem enterFilling_groupOk {sender : Station} {im : Images} {s : State} (q : Seq)
    (agree : imagesAgree sender s.straps.number im = true) (noLeave : ¬ LeaveQueued s.tx)
    (slot : SlotOwn s.straps.number s.tx) : GroupOk none (enterFilling sender q im s) := by
  have image : memberImageOk sender s.straps.number im.members = true := (Bool.and_eq_true_iff.1 agree).1
  have join : im.members[s.straps.number].state = .joining := by
    simp only [memberImageOk, Bool.and_eq_true, beq_iff_eq] at image
    exact image.1.1.1.1
  have same := sameEntries_setSeq im.members sender q
  have table := (tableOk_of_memberImageOk image).of_same same
  refine ⟨(locksOk_of_imagesAgree agree).of_members fun y hy => .inl ((same y).1.trans hy), table,
    ⟨List.nodup_nil, fun x => ⟨nofun, fun h => ?_⟩⟩, nofun, fun _ => (same _).1.trans join, nofun, nofun,
    fun h => absurd h noLeave, slot⟩
  obtain ⟨y, its, member⟩ := table.sponsored x h.1
  obtain rfl := Option.some.inj (its.symm.trans h.2)
  exact absurd (((same _).1.trans join).symm.trans (member.resolve_right nofun)) nofun

/-! ### Effects (R24) -/

/-- The MEMBER that a frame removes stands in no region any more. -/
def Released (f : Frame) (s : State) : Prop :=
  match f.body with
  | .leave => s.mship.table[f.head.sender].state = .member → ∀ r : Region, FreeOf f.head.sender s.locks[r]
  | .drop t _ => isMember s.mship.table f.head.sender = true → t ≠ s.straps.number → s.mship.table[t].state = .member →
      ∀ r : Region, FreeOf t s.locks[r]
  | .join _ => f.head.sender ≠ s.straps.number → s.mship.table[f.head.sender].state = .member →
      ∀ r : Region, FreeOf f.head.sender s.locks[r]
  | _ => True

theorem Released.of_same {f : Frame} {s t : State} (h : Released f s) (same : GroupSame s t) : Released f t := by
  obtain ⟨straps, locks, -, table, -⟩ := same
  unfold Released at h ⊢
  rw [straps, locks, table]
  exact h

theorem releaseLocks_same (x : Station) (s : State) :
    GroupSame (s.withLocks (s.locks.map (yieldEntry x))) (releaseLocks x s) :=
  (completeGrants_moves (a := .noTables) _ _).groupSame id

theorem releaseLocks_free {x : Station} {s : State} (ok : GroupOk none s) (r : Region) :
    FreeOf x (releaseLocks x s).locks[r] := by
  rw [(releaseLocks_same x s).locks]
  exact freeOf_yieldAll ok.locks x r

theorem releaseLocks_table (x : Station) (s : State) : (releaseLocks x s).mship.table = s.mship.table :=
  (releaseLocks_same x s).table

theorem isMember_iff (t : Vector MemberEntry 16) (x : Station) : isMember t x = true ↔ t[x].state = .member := by
  simp [isMember]

/-- The lock effect releases what the frame removes (R42). -/
theorem lockEffect_released {f : Frame} {s : State} (ok : GroupOk none s) : Released f (lockEffect f s) := by
  unfold Released lockEffect
  cases f.body with
  | leave =>
    dsimp only
    split
    · exact fun _ => releaseLocks_free ok
    · rename_i other
      exact fun member => absurd ((isMember_iff _ _).2 member) other
  | drop t reason =>
    dsimp only
    split
    · exact fun _ _ _ => releaseLocks_free ok
    · rename_i other
      exact fun sender mine member => absurd ⟨sender, mine, (isMember_iff _ _).2 member⟩ other
  | join rejoin =>
    dsimp only
    split
    · exact fun _ _ => releaseLocks_free ok
    · rename_i other
      exact fun mine member => absurd ⟨mine, (isMember_iff _ _).2 member⟩ other
  | _ => trivial

/-- The images a SNAPSTATE brings to its target agree with each other; what a receive check has shown (R107, R146). -/
def ImagesSound (f : Frame) (s : State) : Prop :=
  ∀ im, f.body = .snapState s.straps.number im → f.head.sender ≠ s.straps.number →
    imagesAgree f.head.sender s.straps.number im = true

theorem effect_groupOk {f : Frame} {ticket : Option TicketNo} {s t : State} (ok : GroupOk none s)
    (holder : isHolder s.mship.state = true) (released : Released f s) (images : ImagesSound f s)
    (own : f.head.sender = s.straps.number → f.body = .leave → s.mship.state = .leaving)
    (h : effect f ticket s = some t) : GroupOk none t := by
  unfold effect at h
  unfold Released at released
  cases e : f.body with
  | write w =>
    rw [e] at h
    exact ok.moves (applyWrite_moves h)
  | presence => rw [e] at h; obtain rfl := Option.some.inj h; exact ok
  | claim => rw [e] at h; obtain rfl := Option.some.inj h; exact ok
  | join rejoin =>
    rw [e] at h released
    obtain rfl := Option.some.inj h
    split
    · exact ok
    · rename_i other
      exact applyJoin_groupOk _ _ ok holder other (released other)
  | leave =>
    rw [e] at h released
    obtain rfl := Option.some.inj h
    exact applyLeave_groupOk ok holder (fun mine => own mine e) released
  | drop => rw [e] at h released; obtain rfl := Option.some.inj h; exact applyDrop_groupOk _ ok holder released
  | yield r =>
    rw [e] at h
    obtain rfl := Option.some.inj h
    split
    · exact applyOwnYield_groupOk _ _ ok
    · exact ok
  | snapState target im =>
    rw [e] at h
    obtain rfl := Option.some.inj h
    unfold applySnapState
    split
    · rename_i here
      obtain ⟨mine, other, filling⟩ := here
      have mine : target = s.straps.number := mine
      subst mine
      obtain ⟨-, -, -, -, inLeaving, slot⟩ := ok.own
      exact enterFilling_groupOk _ (images im e other) (fun q => absurd (filling.symm.trans (inLeaving q)) nofun) slot
    · exact ok
  | snapCells => rw [e] at h; obtain rfl := Option.some.inj h; exact applySnapCells_groupOk _ _ _ _ ok holder
  | mend => rw [e] at h; obtain rfl := Option.some.inj h; exact ok.moves (applyMend_moves _ _ _ s)
  | mendReply => rw [e] at h; obtain rfl := Option.some.inj h; exact ok.moves (applyMendReply_moves _ _ _ _ s)
  | signal => rw [e] at h; obtain rfl := Option.some.inj h; exact ok.moves (applySignal_moves _ _ _ s)

/-- The lock effect leaves the straps and the Membership block. -/
theorem lockEffect_mship (f : Frame) (s : State) : (lockEffect f s).mship = s.mship := by
  obtain ⟨l, p, h⟩ := lockEffect_changes f s
  rw [h]
  rfl

theorem recordSeq_changes (x : Station) (q : Seq) (s : State) :
    ∃ t, recordSeq x q s = s.withMship { s.mship with table := t } := by
  unfold recordSeq
  split
  · exact ⟨_, rfl⟩
  · exact ⟨s.mship.table, rfl⟩

theorem takeFrame_groupOk {f : Frame} {ticket : Option TicketNo} {s t : State} (ok : GroupOk none s)
    (holder : isHolder s.mship.state = true) (images : ImagesSound f s)
    (own : f.head.sender = s.straps.number → f.body = .leave → s.mship.state = .leaving)
    (h : takeFrame f ticket s = some t) : GroupOk none t := by
  have recorded := recordSeq_groupOk f.head.sender f.head.seq ok holder
  obtain ⟨table, e⟩ := recordSeq_changes f.head.sender f.head.seq s
  have locked := lockEffect_groupOk f recorded
  have same := (stagingStep_moves (a := .noTables) f (lockEffect f (recordSeq f.head.sender f.head.seq s))).groupSame id
  have straps : (stagingStep f (lockEffect f (recordSeq f.head.sender f.head.seq s))).straps = s.straps := by
    rw [same.straps, lockEffect_straps, e]
    rfl
  have state : (stagingStep f (lockEffect f (recordSeq f.head.sender f.head.seq s))).mship.state = s.mship.state := by
    rw [same.state, lockEffect_mship, e]
    rfl
  refine effect_groupOk (locked.of_same same) (by rw [state]; exact holder) ((lockEffect_released recorded).of_same same)
    ?_ ?_ h
  · rw [ImagesSound, straps]
    exact images
  · rw [straps, state]
    exact own

end Sys2Proof.Machine
end

section
/-! The law of the replicated tables at every command. -/

namespace Sys2Proof.Machine

open Sys2Proof.Safety

/-! ### Handling of frames (R20, R24, R27) -/

theorem handleAtHolder_groupOk {f : Frame} {s : State} (ok : GroupOk none s) (holder : isHolder s.mship.state = true)
    (images : ImagesSound f s) : GroupOk none (handleAtHolder f s).1 := by
  unfold handleAtHolder
  split
  · exact ok.moves (reportForeign_moves _ s)
  · rename_i group
    have other : f.head.sender ≠ s.straps.number := fun mine => group (by simp [isForeign, self, mine])
    have cleared : GroupOk none (setDoubt .clear s) := ok.moves (setDoubt_moves .clear s)
    split
    · exact depart_groupOk _ s
    · exact depart_groupOk _ s
    · dsimp only
      split
      · exact depart_groupOk _ _
      · exact cleared.moves (signOfLife_moves _ _)
      · split
        · rename_i t taken
          exact takeFrame_groupOk (cleared.moves (signOfLife_moves _ _)) holder images (fun mine => absurd mine other) taken
        · exact depart_groupOk _ _

theorem handlePeer_groupOk {f : Frame} {s : State} (ok : GroupOk none s) (images : ImagesSound f s) :
    GroupOk none (handlePeer f s).1 := by
  cases state : s.mship.state with
  | awaitState =>
    simp only [handlePeer, state]
    unfold handleAwaiting
    split
    · exact ok
    · rename_i other
      split
      · rename_i target im body
        split
        · rename_i mine
          have mine : target = s.straps.number := mine
          subst mine
          obtain ⟨-, -, -, -, inLeaving, slot⟩ := ok.own
          exact enterFilling_groupOk _ (images im body other) (fun q => absurd (state.symm.trans (inLeaving q)) nofun) slot
        · exact ok
      · exact ok
  | unconfigured => simpa only [handlePeer, state] using ok
  | outside => simpa only [handlePeer, state] using ok
  | joinSent => simpa only [handlePeer, state] using ok
  | filling => simpa only [handlePeer, state] using handleAtHolder_groupOk ok (by rw [state]; rfl) images
  | member => simpa only [handlePeer, state] using handleAtHolder_groupOk ok (by rw [state]; rfl) images
  | leaving => simpa only [handlePeer, state] using handleAtHolder_groupOk ok (by rw [state]; rfl) images

/-- The frame in the slot is this station's own, and a LEAVE only at a LEAVING station. -/
theorem handleOwn_groupOk {sl : Slot} {s : State} (ticket : Option TicketNo) (first : Bool) (ok : GroupOk none s)
    (mine : sl.frame.head.sender = s.straps.number) (leaving : sl.frame.body = .leave → s.mship.state = .leaving) :
    GroupOk none (handleOwn sl.frame ticket first s) := by
  have cleared : GroupOk none (setDoubt .clear s) := ok.moves (setDoubt_moves .clear s)
  have free : isHolder s.mship.state = true → GroupOk none (if first then
      (takeFrame sl.frame ticket (setDoubt .clear s)).getD
        (depart .outOfStep (setDoubt .clear s)) else setDoubt .clear s) := by
    intro holder
    split
    · cases taken : takeFrame sl.frame ticket (setDoubt .clear s) with
      | none => exact depart_groupOk _ _
      | some t => exact takeFrame_groupOk cleared holder (fun _ _ other => absurd mine other) (fun _ => leaving) taken
    · exact cleared
  unfold handleOwn
  split
  · rename_i holder
    split
    · exact depart_groupOk _ s
    · exact free holder
    · exact free holder
  · exact ok

/-! ### Carrier ends (R146, R148) -/

/-- Good means: past every field check of station n (R146). -/
def ClassSound (n : Station) (cls : FrameClass) : Prop := ∀ f, cls = .good f → frameOkAt n f = true

theorem classOfFrame_sound (n : Station) (mark : Bool) (f : Frame) : ClassSound n (classOfFrame n mark f) := by
  intro g h
  unfold classOfFrame at h
  split at h
  · split at h
    · rename_i passes
      obtain rfl := FrameClass.good.inj h
      exact passes
    · cases h
  · cases h

theorem judgeKnown_sound (n : Station) (unframed : Bool) (kind b1 seq target l1 l0 : Byte) (rest : List Byte) :
    ClassSound n (judgeKnown n unframed kind b1 seq target l1 l0 rest) := by
  intro g h
  unfold judgeKnown at h
  dsimp only at h
  split at h
  · cases h
  · split at h
    · cases h
    · split at h
      · split at h
        · rename_i passes
          obtain rfl := FrameClass.good.inj h
          exact passes
        · cases h
      · cases h

theorem classify_sound (n : Station) (mark : Bool) (heard : Heard) : ClassSound n (classify n mark heard) := by
  intro g h
  unfold classify at h
  split at h
  · split at h
    · exact judgeKnown_sound _ _ _ _ _ _ _ _ _ g h
    · cases h
  · cases h

theorem imagesSound_of_frameOkAt {f : Frame} {s : State} (h : frameOkAt s.straps.number f = true) : ImagesSound f s := by
  intro im body _
  have agree : frameInRange f = true ∧ imagesAgree f.head.sender s.straps.number im = true := by
    simpa [frameOkAt, body] using h
  exact agree.2

theorem handFrame_groupOk {cls : FrameClass} {s : State} (ok : GroupOk none s) (sound : ClassSound s.straps.number cls) :
    GroupOk none (handFrame cls s).1 := by
  have unset : ∀ x, Moves .noTables s (setReference x s) := fun x => setReference_moves trivial x s
  cases cls with
  | good f =>
    have before : Moves .noTables s (meetListening (setReference (some f.head.sender) s)) :=
      (unset _).trans (meetListening_moves _)
    refine handlePeer_groupOk (ok.moves before) (imagesSound_of_frameOkAt ?_)
    rw [before.straps]
    exact sound f rfl
  | damagedKnown x again q => exact ok.moves ((unset none).trans (handleDamaged_moves x q _).1)
  | damagedUnknown => exact ok.moves ((unset none).trans (handleDamaged_moves 0 0 _).2)

theorem heardEnd_groupOk {cls : FrameClass} {s : State} (mark : Bool) (h : Heard) (ok : GroupOk none s)
    (sound : ClassSound s.straps.number cls) : GroupOk none (heardEnd mark h cls s) := by
  have recorded : Moves .noTables s (recordHeard mark h s) := recordHeard_moves mark h s
  exact (handFrame_groupOk (ok.moves recorded) (by rw [recorded.straps]; exact sound)).moves (bus_moves _ _)

theorem ownEnd_groupOk {sl : Slot} {s : State} (ok : GroupOk none s) (held : s.tx.slot = some sl) :
    GroupOk none (ownEnd sl s) := by
  obtain ⟨-, -, -, -, inLeaving, slot⟩ := ok.own
  have ready : Moves .noTables s (setSlot (some { sl with
      heard := true, gap := .repeatGap, repeats := if sl.heard then sl.repeats + 1 else sl.repeats })
      (meetListening ((recordHeard true (onLine (frameBytes sl.frame)) s).withAccess
        { (recordHeard true (onLine (frameBytes sl.frame)) s).access with
          reference := some (self s)
          collisions := 0 }))) := by
    refine .trans ?_ (setSlot_moves (old := sl) (by rw [meetListening_tx, State.withAccess_tx, recordHeard_tx, held]) rfl id)
    refine .trans (.trans ?_ (access_moves (fun _ => Nat.zero_le 8) (.inr trivial))) (meetListening_moves _)
    exact recordHeard_moves true _ s
  have same := ready.groupSame id
  have own : SlotOwn s.straps.number s.tx := slot
  refine GroupOk.moves ?_ (bus_moves _ _)
  refine handleOwn_groupOk (sl := sl) sl.ticket (!sl.heard) (ok.of_same same) ((own sl held).trans ?_) fun leave => ?_
  · exact congrArg Straps.number same.straps.symm
  · exact same.state.trans (inLeaving (.inl ⟨sl, held, leave⟩))

theorem carrierEnd_groupOk {s : State} (f : Frame) (ok : GroupOk none s) : GroupOk none (carrierEnd f s) := by
  unfold carrierEnd
  split
  · split
    · rename_i held
      split
      · exact ownEnd_groupOk ok held
      · exact ok
    · exact ok
  · exact heardEnd_groupOk _ _ ok (classOfFrame_sound _ _ _)
  · exact heardEnd_groupOk _ _ ok (classOfFrame_sound _ _ _)
  · exact ok

theorem heardBytesEnd_groupOk {s : State} (h : Heard) (ok : GroupOk none s) : GroupOk none (heardBytesEnd h s) := by
  unfold heardBytesEnd
  split
  · exact heardEnd_groupOk _ _ ok (classify_sound _ _ _)
  · exact heardEnd_groupOk _ _ ok (classify_sound _ _ _)
  · exact ok
  · exact ok

theorem collide_groupOk {s : State} (mark : Bool) (h : Heard) (ok : GroupOk none s) : GroupOk none (collide mark h s) := by
  unfold collide
  split
  · have recorded : Moves .noTables s (recordHeard mark h s) := recordHeard_moves mark h s
    have handed := handFrame_groupOk (ok.moves recorded) (by rw [recorded.straps]; exact classify_sound _ mark h)
    refine GroupOk.moves ?_ (bus_moves _ _)
    exact (handed.moves (dropOrphanFragment_moves _)).moves (reportCollision_moves trivial _)
  · exact ok

/-! ### Window ends (R151, R168 to R172) -/

theorem settle_groupOk {s : State} (sl : Slot) (missing map : Flags16) (ok : GroupOk none s) :
    GroupOk none (settle sl missing map s) := by
  have effects : GroupOk none (settleEffects sl map (setSlot none s)) :=
    (ok.moves (setSlot_none_moves s)).moves (settleEffects_moves sl map _)
  unfold settle
  dsimp only
  split
  · exact depart_groupOk _ _
  · split
    · exact effects
    · exact effects.moves (foldl_moves queueSettlementDrop_moves _ _)

/-- A station that holds no table changes into another state that holds none. -/
theorem GroupOk.of_no_table {s t : State} (ok : GroupOk none s) (before : isHolder s.mship.state = false)
    (after : isHolder t.mship.state = false) (straps : t.straps = s.straps) (locks : t.locks = s.locks)
    (table : t.mship.table = s.mship.table) (sponsor : t.sponsor = s.sponsor)
    (leave : LeaveQueued t.tx → LeaveQueued s.tx) (slot : SlotOwn s.straps.number s.tx → SlotOwn s.straps.number t.tx) :
    GroupOk none t := by
  obtain ⟨okl, okt, oks, -, -, -, noTable, inLeaving, slotOwn⟩ := ok
  have other : ∀ st, isHolder st = true → t.mship.state ≠ st := by
    rintro st holds rfl
    exact absurd (after.symm.trans holds) nofun
  refine ⟨by rw [table, locks]; exact okl, by rw [table]; exact okt, by rw [straps, table, sponsor]; exact oks,
    fun h => absurd h (other _ rfl), fun h => absurd h (other _ rfl), fun h => absurd h (other _ rfl), fun _ => ?_,
    fun q => ?_, ?_⟩
  · rw [table]
    exact noTable before
  · rw [inLeaving (leave q)] at before
    cases before
  · rw [straps]
    exact slot slotOwn

theorem joinAcked_groupOk {sl : Slot} {s : State} (ok : GroupOk none s) (state : s.mship.state = .joinSent) :
    GroupOk none (joinAcked sl s) := by
  have left : GroupOk none (setSlot none s) := ok.moves (setSlot_none_moves s)
  have started : GroupOk none (startPresence (setStation .awaitState (setSlot none s))) :=
    left.of_no_table (by show isHolder s.mship.state = false; rw [state]; rfl) rfl rfl rfl rfl rfl id id
  unfold joinAcked
  dsimp only
  split
  · exact started.moves (advanceTicket_moves _ (by simp) _)
  · exact started

/-- A station alone in the group it has founded (R85). -/
theorem foundedState_groupOk {s : State} (q : Seq) (noLeave : ¬ LeaveQueued s.tx) (slot : SlotOwn s.straps.number s.tx) :
    GroupOk none (foundedState q s) := by
  have entry : ∀ y : Station, (foundedState q s).mship.table[y] = if y = s.straps.number then
      { absentEntry with state := .member, lastSeq := q } else absentEntry := fun y => by
    show ((Vector.replicate 16 absentEntry).set s.straps.number.val
      { absentEntry with state := .member, lastSeq := q })[y] = _
    rw [getElem_set_fin, getElem_replicate_fin]
  have alone : ∀ y : Station, (foundedState q s).mship.table[y].state ≠ .joining := fun y => by
    rw [entry]
    split <;> nofun
  refine ⟨locksOk_free _, tableOk_of_no_joiner alone fun y => ?_,
    ⟨List.nodup_nil, fun x => ⟨nofun, fun h => absurd h.1 (alone x)⟩⟩, fun _ => ?_, nofun, nofun, nofun,
    fun h => absurd h noLeave, slot⟩
  · rw [entry]
    split <;> exact ⟨rfl, rfl⟩
  · exact congrArg MemberEntry.state ((entry s.straps.number).trans (if_pos rfl))

theorem found_groupOk {s : State} (q : Seq) (ok : GroupOk none s) (state : s.mship.state = .joinSent) :
    GroupOk none (found q s) := by
  obtain ⟨-, -, -, -, inLeaving, slot⟩ := ok.own
  rw [found_eq]
  exact (foundedState_groupOk q (fun h => absurd (state.symm.trans (inLeaving h)) nofun) slot).moves (completeJoin_moves _ _)

theorem judge_groupOk {s : State} (map : Flags16) (ok : GroupOk none s) : GroupOk none (judge map s) := by
  have left : GroupOk none (setSlot none s) := ok.moves (setSlot_none_moves s)
  have required : ∀ sl, s.tx.slot = some sl → GroupOk none (judgeRequired sl map s) := fun sl held => by
    unfold judgeRequired
    dsimp only
    split_ifs
    · exact settle_groupOk sl 0 map ok
    · exact ok.moves (repeatDue_moves held)
    · exact settle_groupOk sl _ map ok
    · exact depart_groupOk _ _
  unfold judge
  split
  · exact ok
  · rename_i sl held
    split
    · rename_i state
      unfold judgeJoin
      split_ifs
      · exact joinAcked_groupOk ok state
      · exact found_groupOk _ left state
      · exact ok.moves (repeatDue_moves held)
    · unfold judgeAwaiting
      split_ifs
      · exact left
      · exact depart_groupOk _ _
      · exact ok.moves (repeatDue_moves held)
    all_goals exact required sl held

theorem disposeAtLineFault_groupOk {s : State} (ok : GroupOk none s) : GroupOk none (disposeAtLineFault s) := by
  unfold disposeAtLineFault
  split
  · exact ok
  · split
    · exact depart_groupOk _ _
    · exact ok

theorem endAckWindow_groupOk {s : State} (map : Flags16) (ok : GroupOk none s) : GroupOk none (endAckWindow map s) := by
  unfold endAckWindow
  split
  · dsimp only
    generalize hu : (s.withBus { s.bus with state := .idle, ackMap := map, ackDrive := false, report := .heard }) = u
    have idle : Moves .noTables s u := hu ▸ bus_moves s _
    have counted := idle.trans (gapCount_moves 0 u)
    generalize hv : u.withAccess { u.access with gapCount := 0 } = v at counted
    have driven : Moves .noTables s (if s.bus.ackDrive then restartPresence v else v) := by
      split
      · exact counted.trans (restartPresence_moves v)
      · exact counted
    have seen : Moves .noTables s (ackedPeers map (if s.bus.ackDrive then restartPresence v else v)) :=
      driven.trans (foldl_moves (fun s x => signOfLife_moves x s) _ _)
    generalize ackedPeers map (if s.bus.ackDrive then restartPresence v else v) = w at seen
    have okw := ok.moves seen
    split
    · exact judge_groupOk map okw
    · split
      · exact disposeAtLineFault_groupOk okw
      · exact okw
    · exact okw
  · exact ok

/-! ### The host's requests -/

theorem doConfigure_groupOk {s : State} (args : List Byte) (ok : GroupOk none s) : GroupOk none (doConfigure args s) := by
  unfold doConfigure
  split
  · exact ok.moves (refuse_moves _ s)
  · split
    · rename_i state
      refine GroupOk.moves ?_ (respond_moves _ _ _)
      exact ok.of_no_table (by rw [state]; rfl) rfl rfl rfl rfl rfl id id
    · exact ok.moves (refuse_moves _ s)

/-- A deferred request accepted with a ticket to issue, or refused. -/
theorem withTicket_groupOk {f : TicketNo → State → State} {s : State} (ok : GroupOk none s)
    (h : ∀ k, Ready k s.port → GroupOk none (f k s)) : GroupOk none (withTicket f s) := by
  unfold withTicket
  split
  · rename_i k issued
    exact h k (ready_of_issuable issued)
  · exact ok.moves (refuse_moves _ s)

theorem doJoin_groupOk {s : State} (args : List Byte) (ok : GroupOk none s) : GroupOk none (doJoin args s) := by
  unfold doJoin
  split
  · exact ok.moves (refuse_moves _ s)
  · rename_i outside
    have outside := not_not.1 outside
    refine withTicket_groupOk ok fun k ready => GroupOk.moves ?_ (accept_moves _ _ _ nofun ready)
    exact ok.of_no_table (by rw [outside]; rfl) rfl rfl rfl rfl rfl id id

/-- A MEMBER station goes into LEAVING, its tables as they stand. -/
theorem GroupOk.goLeaving {s t : State} (ok : GroupOk none s) (member : s.mship.state = .member)
    (straps : t.straps = s.straps)
    (locks : t.locks = s.locks) (table : t.mship.table = s.mship.table) (sponsor : t.sponsor = s.sponsor)
    (slot : t.tx.slot = s.tx.slot) (state : t.mship.state = .leaving) : GroupOk none t := by
  obtain ⟨okl, okt, oks, own, -, -, -, -, slotOwn⟩ := ok
  refine ⟨by rw [table, locks]; exact okl, by rw [table]; exact okt, by rw [straps, table, sponsor]; exact oks, ?_⟩
  simp only [OwnEntryLaw, straps, table, slot, state]
  refine ⟨nofun, nofun, fun _ => ?_, nofun, fun _ => trivial, slotOwn⟩
  rw [own member]
  nofun

/-- An acceptance changes the port and the host send list alone. -/
theorem accept_changes (k : TicketNo) (kind : RequestKind) (arg : TicketArg) (link : Option TicketNo) (f : SendFrame)
    (s : State) : ∃ p list, accept k kind arg link f s = (s.withPort p).withTx { s.tx with sendList := list } := ⟨_, _, rfl⟩

/-- The acceptance of a LEAVE takes the own entry, MEMBER, into LEAVING (R86). -/
theorem acceptLeave_groupOk {k : TicketNo} {s : State} (ok : GroupOk none s) (member : s.mship.state = .member) :
    GroupOk none (acceptLeave k s) := by
  have cancelled : Moves .noTables s
      (completeAll (ticketsIn (leaveBundle s).port (· == .queued)) .cancelled (leaveBundle s)) :=
    (leaveBundle_moves s).trans (completeAll_moves _ _ _)
  unfold acceptLeave
  dsimp only
  generalize completeAll (ticketsIn (leaveBundle s).port (· == .queued)) .cancelled (leaveBundle s) = u at cancelled
  have state : u.mship.state = .member := (cancelled.groupSame id).state.trans member
  obtain ⟨p, list, e⟩ := accept_changes k .leave .none none .leave
    (stopSilence (((u.withBundle { draft := [], outgoing := none }).withTx { u.tx with sendList := [] }).withMship
      { u.mship with state := .leaving, presence := none }))
  refine (congrArg (GroupOk none) e).mpr ?_
  refine GroupOk.goLeaving (s := u) (ok.moves cancelled) state ?_ ?_ ?_ ?_ ?_ ?_ <;> rfl

theorem doLeave_groupOk {s : State} (args : List Byte) (ok : GroupOk none s) : GroupOk none (doLeave args s) := by
  unfold doLeave
  split
  · exact ok.moves (refuse_moves _ s)
  · rename_i member
    exact withTicket_groupOk ok fun k _ => acceptLeave_groupOk ok (not_not.1 member)

theorem choice_groupOk {p : Prop} [Decidable p] {f g : State → State} {s : State} (hf : GroupOk none (f s))
    (hg : GroupOk none (g s)) : GroupOk none ((if p then f else g) s) := by
  split <;> assumption

theorem requestPoint_groupOk {s : State} (rq : Request) (ok : GroupOk none s) : GroupOk none (requestPoint rq s) :=
  choice_groupOk (ok.moves (doStatus_moves _ s)) <| choice_groupOk (doConfigure_groupOk _ ok) <|
  choice_groupOk (ok.moves (doReadCells_moves _ s)) <| choice_groupOk (ok.moves (doReadRegion_moves _ s)) <|
  choice_groupOk (ok.moves (respond_moves _ _ s)) <| choice_groupOk (ok.moves (doTakeNotice_moves _ s)) <|
  choice_groupOk (ok.moves (doSetWatch_moves trivial _ s)) <| choice_groupOk (ok.moves (doStageCell_moves _ s)) <|
  choice_groupOk (ok.moves (doUnstageCell_moves _ s)) <| choice_groupOk (ok.moves (doDiscardDraft_moves _ s)) <|
  choice_groupOk (doJoin_groupOk _ ok) <| choice_groupOk (doLeave_groupOk _ ok) <|
  choice_groupOk (ok.moves (doClaim_moves _ s)) <| choice_groupOk (ok.moves (doRelease_moves _ s)) <|
  choice_groupOk (ok.moves (doWithdraw_moves _ s)) <| choice_groupOk (ok.moves (doCommit_moves _ s)) <|
  choice_groupOk (ok.moves (doSignal_moves _ s)) <| ok.moves (refuse_moves _ s)

theorem carryOut_groupOk {s : State} (ok : GroupOk none s) : GroupOk none (carryOut s) := by
  unfold carryOut
  split
  · exact requestPoint_groupOk _ ok
  · exact ok
  · exact ok

/-! ### Every command -/

theorem running_groupOk {f : State → State} {s t : State} (ok : GroupOk none s) (kept : GroupOk none (f s))
    (h : running f s = .next t) : GroupOk none t := by
  obtain rfl := Host.Outcome.next.inj h
  split <;> assumption

theorem checkPoint_groupOk {code : Byte} {f : List Byte → State → State} {s : State} (ok : GroupOk none s)
    (kept : ∀ args, GroupOk none (f args s)) : GroupOk none (checkPoint code f s) := by
  unfold checkPoint
  split
  · split
    · exact kept _
    · exact ok
  · exact ok
  · exact ok

/-- The commands that change the replicated tables or the station state by the host's hand. -/
theorem exec_groupOk {c : Instr} {s u : State} (ok : GroupOk none s) (plain : NoReset c) (h : exec c s = .next u) :
    GroupOk none u := by
  have event : ∀ {f : State → State}, (∀ v, GroupOk none v → GroupOk none (f v)) → atEvent f s = .next u → GroupOk none u :=
    fun {f} kept h => running_groupOk (f := fun s => f (carryOut s)) ok (kept _ (carryOut_groupOk ok)) h
  have quiet : ∀ {f : State → State}, (∀ v, Moves .noTables v (f v)) → atEvent f s = .next u → GroupOk none u :=
    fun kept => event fun v okv => okv.moves (kept v)
  have request : ∀ {code : Byte} {f : List Byte → State → State}, (∀ args, Moves .noTables s (f args s)) →
      running (checkPoint code f) s = .next u → GroupOk none u :=
    fun kept h => running_groupOk ok (checkPoint_groupOk ok fun args => ok.moves (kept args)) h
  have frame : ∀ f, c = frameCommand f → GroupOk none u := by
    rintro f rfl
    rw [exec_frameCommand] at h
    exact event (fun u => carrierEnd_groupOk f) h
  cases c with
  | reset => exact absurd rfl plain.1
  | resetRelease n r => exact absurd rfl (plain.2 n r)
  | poll n => exact running_groupOk ok (ok.moves (setSdo_moves _ s)) h
  | fetch n => exact running_groupOk ok (ok.moves (fetchPort_moves n s)) h
  | requestTransaction sdi => exact running_groupOk ok (ok.moves (requestPort_moves sdi s)) h
  | status => exact request (fun args => doStatus_moves args s) h
  | configure => exact running_groupOk ok (checkPoint_groupOk ok fun args => doConfigure_groupOk args ok) h
  | readCells => exact request (fun args => doReadCells_moves args s) h
  | stageCell => exact request (fun args => doStageCell_moves args s) h
  | unstageCell => exact request (fun args => doUnstageCell_moves args s) h
  | discardDraft => exact request (fun args => doDiscardDraft_moves args s) h
  | takeNotice => exact request (fun args => doTakeNotice_moves args s) h
  | setWatch => exact request (fun args => doSetWatch_moves trivial args s) h
  | readRegion => exact request (fun args => doReadRegion_moves args s) h
  | readMembers => exact request (fun args => respond_moves _ _ s) h
  | join => exact running_groupOk ok (checkPoint_groupOk ok fun args => doJoin_groupOk args ok) h
  | leave => exact running_groupOk ok (checkPoint_groupOk ok fun args => doLeave_groupOk args ok) h
  | claim => exact request (fun args => doClaim_moves args s) h
  | release => exact request (fun args => doRelease_moves args s) h
  | withdraw => exact request (fun args => doWithdraw_moves args s) h
  | commit => exact request (fun args => doCommit_moves args s) h
  | signal => exact request (fun args => doSignal_moves args s) h
  | unassignedRequest =>
    refine running_groupOk ok ?_ h
    unfold unassignedPoint
    split
    · split
      · exact ok
      · exact ok.moves (refuse_moves _ s)
    · exact ok
    · exact ok
  | carrierBegin n idle =>
    refine quiet (fun u => ?_) h
    unfold beginCarrier
    exact ite_moves (bus_moves u _) .refl
  | transmissionStart slots => exact quiet (startAfter_moves slots) h
  | presenceFrame head => exact frame ⟨head, .presence⟩ rfl
  | joinFrame head r => exact frame ⟨head, .join r⟩ rfl
  | leaveFrame head => exact frame ⟨head, .leave⟩ rfl
  | dropFrame head t r => exact frame ⟨head, .drop t r⟩ rfl
  | claimFrame head r => exact frame ⟨head, .claim r⟩ rfl
  | yieldFrame head r => exact frame ⟨head, .yield r⟩ rfl
  | writeFrame head w => exact frame ⟨head, .write w⟩ rfl
  | snapStateFrame head t im => exact frame ⟨head, .snapState t im⟩ rfl
  | snapCellsFrame head t g rs => exact frame ⟨head, .snapCells t g rs⟩ rfl
  | mendFrame head t c => exact frame ⟨head, .mend t c⟩ rfl
  | mendReplyFrame head t c answer => exact frame ⟨head, .mendReply t c answer⟩ rfl
  | signalFrame head t bs => exact frame ⟨head, .signal t bs⟩ rfl
  | damagedFrame heard => exact event (fun u => heardBytesEnd_groupOk heard) h
  | collision m heard => exact event (fun u => collide_groupOk m heard) h
  | ackWindowEnd map => exact event (fun u => endAckWindow_groupOk map) h
  | listenTimerExpiry => exact quiet expireListen_moves h
  | silenceTimerExpiry x => exact quiet (expireSilence_moves x) h
  | presenceTimerExpiry => exact quiet expirePresence_moves h
  | mendWindowExpiry => exact quiet expireMendWindow_moves h
  | holdOffExpiry => exact quiet expireHoldOff_moves h
  | storageUpset c v d check => exact quiet (fun u => .tail (.single (.mem c d)) (.cells _)) h

theorem tick_groupOk {s : State} (ok : GroupOk none s) : GroupOk none (tick s) := by
  unfold tick
  split
  · exact ok
  · have carried := carryOut_groupOk ok
    generalize carryOut s = u at carried
    dsimp only
    cases h : startWithin 1 u with
    | none =>
      rw [Option.getD_none]
      exact carried.moves (slotPasses_moves u)
    | some t =>
      rw [Option.getD_some]
      exact carried.moves (startWithin_moves h)

theorem groupLaw_reset (straps : Straps) (s : State) : GroupLaw (resetWith straps s) := by
  have empty : ∀ x : Station, (resetWith straps s).mship.table[x] = absentEntry := getElem_replicate_fin _
  refine (groupLaw_iff _).2 ⟨locksOk_free _, tableOk_of_no_joiner (fun x => ?_) (fun x => ?_),
    ⟨List.nodup_nil, fun x => ⟨nofun, fun h => ?_⟩⟩, nofun, nofun, nofun, fun _ x => ?_, fun h => ?_, nofun⟩
  · rw [empty]; nofun
  · rw [empty]; exact ⟨rfl, rfl⟩
  · have := h.1
    rw [empty] at this
    cases this
  · rw [empty]; rfl
  · obtain ⟨sl, held, -⟩ | ⟨e, he, -⟩ := h
    · cases held
    · cases he

end Sys2Proof.Machine

namespace Sys2Proof

open Sys2Proof.Machine Sys2Proof.Safety

/-- Settles O5: every command keeps the law, those that touch no table as runs of moves, the others by the law of the tables
under removals, joins, fills, yields and claims. -/
theorem stepKeepsGroupLaw : Obligations.StepKeepsGroupLaw := by
  intro s t law h
  have ok := (groupLaw_iff s).1 law
  unfold step at h
  split at h
  · obtain rfl := Host.Outcome.next.inj h
    exact (groupLaw_iff _).2 (tick_groupOk ok)
  · rename_i c rest _
    by_cases plain : NoReset c
    · exact (groupLaw_iff _).2 (exec_groupOk (s := s.withPending rest)
        (ok.of_same ⟨rfl, rfl, rfl, rfl, rfl, id, id⟩) plain h)
    · rw [NoReset, not_and_or, not_ne_iff, not_forall] at plain
      obtain rfl | ⟨n, hn⟩ := plain
      · obtain rfl := Host.Outcome.next.inj h
        exact groupLaw_reset _ _
      · obtain ⟨r, hr⟩ := not_forall.1 hn
        obtain rfl := not_ne_iff.1 hr
        obtain rfl := Host.Outcome.next.inj h
        exact groupLaw_reset _ _

end Sys2Proof
end

section
/-! The step, the reset, the port's transactions, the carrier's begin, the timers' expiries and a storage upset. -/

namespace Sys2Proof.Machine

open Sys2Proof.Safety

/-! ### Out of reset -/

theorem running_out {f : State → State} {s : State} (h : Running s) : running f s = .next (f s) := by
  have h : s.straps.inReset = false := h
  simp only [running, h, Bool.false_eq_true, if_false]

/-! ### The status byte (R176) -/

/-- The five flags and the state code of a byte made of them (12.4). -/
theorem flags_of_append (ready resp attn refused dropped : Bool) (code : BitVec 3) :
    let b : Byte := BitVec.ofBool ready ++ BitVec.ofBool resp ++ BitVec.ofBool attn ++ BitVec.ofBool refused
      ++ BitVec.ofBool dropped ++ code
    b.getLsbD 7 = ready ∧ b.getLsbD 6 = resp ∧ b.getLsbD 5 = attn ∧ b.getLsbD 4 = refused ∧ b.getLsbD 3 = dropped
      ∧ b.extractLsb' 0 3 = code := by
  revert ready resp attn refused dropped code
  decide

theorem readyFlag_iff (p : PortPhase) : readyFlag p = true ↔ p = .idle := by cases p <;> simp [readyFlag]

theorem respFlag_iff (p : PortPhase) : respFlag p = true ↔ ∃ r, p = .holding r := by cases p <;> simp [respFlag]

theorem attnLow_iff (s : State) : attnLow s = true ↔ s.port.notices ≠ [] := by simp [attnLow]

/-! ### FETCH (R180) -/

theorem responseBytes_eq (r : Response) : responseBytes r =
    resultByte r.code :: BitVec.ofNat 8 (r.body.length / 256) :: BitVec.ofNat 8 r.body.length :: r.body := by
  have high : (BitVec.ofNat 16 r.body.length).extractLsb' 8 8 = BitVec.ofNat 8 (r.body.length / 256) := by
    apply BitVec.eq_of_toNat_eq
    simp only [BitVec.extractLsb'_toNat, BitVec.toNat_ofNat, Nat.shiftRight_eq_div_pow]
    omega
  have low : (BitVec.ofNat 16 r.body.length).extractLsb' 0 8 = BitVec.ofNat 8 r.body.length := by
    apply BitVec.eq_of_toNat_eq
    simp only [BitVec.extractLsb'_toNat, BitVec.toNat_ofNat, Nat.shiftRight_eq_div_pow]
    omega
  rw [responseBytes, wordBytes, high, low]
  rfl

/-- Beyond the reply's end 00h is shifted out. -/
theorem shiftedOut_beyond (reply : List Byte) (k : Nat) :
    shiftedOut (reply.length + k) reply = reply ++ List.replicate k 0 := by
  rw [shiftedOut, List.take_length_add_append, List.take_replicate, Nat.min_eq_left (Nat.le_add_left _ _)]

theorem shiftedOut_empty_response (code : Byte) (k : Nat) :
    shiftedOut (3 + k) [code, 0x00, 0x00] = code :: List.replicate (2 + k) 0 := by
  rw [Nat.add_comm 2 k]
  exact shiftedOut_beyond [code, 0x00, 0x00] k

/-- Short of its end the reply's front is. -/
theorem shiftedOut_short {reply : List Byte} {n : Nat} (h : n ≤ reply.length) : shiftedOut n reply = reply.take n := by
  rw [shiftedOut, List.take_append_of_le_length h]

theorem fetchPort_idle {s : State} (n : Nat) (h : ∀ r, s.port.phase ≠ .holding r) :
    fetchPort n s = setSdo (statusByte s :: shiftedOut n (fetchReply s.port.phase)) s := by
  unfold fetchPort
  split
  · rename_i r e
    exact absurd e (h r)
  · rfl
  · rfl

theorem fetchPort_held {s : State} {r : Response} (n : Nat) (h : s.port.phase = .holding r) :
    fetchPort n s = if (responseBytes r).length ≤ n then
        setPhase .idle (setSdo (statusByte s :: shiftedOut n (responseBytes r)) s)
      else setSdo (statusByte s :: shiftedOut n (responseBytes r)) s := by
  unfold fetchPort
  simp only [h, fetchReply]

/-! ### Expiries (R77, R91, R92, R161) -/

theorem ne_none_iff_some {α : Type} {o : Option α} (h : o ≠ none) : ∃ v, o = some v := Option.ne_none_iff_exists'.1 h

theorem expireSilence_running {x : Station} {s : State} (h : s.mship.silence[x] ≠ none) :
    expireSilence x s = if s.tx.drops.any (·.target == x) then setSilence x (some 16384) s
      else (setSilence x (some 16384) s).withTx
        { s.tx with drops := s.tx.drops ++ [{ target := x, reason := .silent, cls := .turn }] } := by
  obtain ⟨v, hv⟩ := ne_none_iff_some h
  unfold expireSilence
  rw [hv]
  rfl

end Sys2Proof.Machine

namespace Sys2Proof

open Sys2Proof.Machine Sys2Proof.Safety

/-- Settles O1: it is how the step is defined. -/
theorem stepRunsFrontCommand : Obligations.StepRunsFrontCommand := fun _ _ _ => rfl

/-- Settles O7: from the laws at reset, one by one. -/
theorem lawsHoldAtReset : Obligations.LawsHoldAtReset :=
  ⟨storeLaw_reset, portLaw_reset, groupLaw_reset State.reset.straps State.reset, capacityLaw_reset⟩

/-- Settles O10: each block at its reset value. -/
theorem resetLeavesResetValues : Obligations.ResetLeavesResetValues := by
  intro s number rate
  refine ⟨_, _, rfl, rfl, rfl, rfl, rfl, fun _ => rfl, fun c => ?_, rfl, fun r => ?_, rfl, fun x => ?_, fun x => ?_,
    rfl, rfl, rfl, rfl, rfl, rfl, rfl, rfl, rfl, rfl, rfl, rfl, fun k => ?_, rfl, rfl, rfl, rfl, rfl, rfl, rfl, rfl, rfl,
      rfl, rfl⟩
  · exact getElem_replicate_fin CellRec.reset c
  · exact getElem_replicate_fin freeRegion r
  · exact getElem_replicate_fin absentEntry x
  · exact getElem_replicate_fin none x
  · exact getElem_replicate_fin none k

/-- Settles O11: every command but a reset is carried out on a running station alone. -/
theorem nothingHappensInReset : Obligations.NothingHappensInReset := by
  intro c s inReset no noRelease
  cases c with
  | reset => exact absurd rfl no
  | resetRelease n r => exact absurd rfl (noRelease n r)
  | _ => exact congrArg Host.Outcome.next (if_pos inReset)

/-- Settles O12: flag by flag of the status byte. -/
theorem pollShowsStatusByte : Obligations.PollShowsStatusByte := by
  intro s n out
  obtain ⟨ready, resp, attn, refused, dropped, code⟩ := flags_of_append (readyFlag s.port.phase) (respFlag s.port.phase)
    (attnLow s) s.port.refusedLast s.port.noticesDropped (stationStateCode s.mship.state)
  refine ⟨statusByte s, running_out out, ?_, ?_, ?_, refused, dropped, code⟩
  · exact ready ▸ readyFlag_iff _
  · exact resp ▸ respFlag_iff _
  · exact attn ▸ attnLow_iff s

/-- Settles O13: by the port state, and with a response held by whether all of it is shifted out. -/
theorem fetchAnswersByPortState : Obligations.FetchAnswersByPortState := by
  intro s k out
  have fetch : ∀ n, exec (.fetch n) s = .next (fetchPort n s) := fun n => running_out out
  refine ⟨fun r held => ?_, fun idle => ?_, fun rq working => ?_⟩
  · rw [← responseBytes_eq]
    refine ⟨?_, fun n short => ?_⟩
    · rw [fetch, fetchPort_held _ held, if_pos (Nat.le_add_right _ _), shiftedOut_beyond]
      rfl
    · rw [fetch, fetchPort_held _ held, if_neg (Nat.not_le_of_lt short), shiftedOut_short short.le]
      rfl
  · have reply : fetchReply s.port.phase = [0x03, 0x00, 0x00] := by rw [idle]; rfl
    rw [fetch, fetchPort_idle _ (by rw [idle]; nofun), reply,
      shiftedOut_empty_response]
    rfl
  · have reply : fetchReply s.port.phase = [0x02, 0x00, 0x00] := by rw [working]; rfl
    rw [fetch, fetchPort_idle _ (by rw [working]; nofun), reply,
      shiftedOut_empty_response]
    rfl

/-- Settles O31: by the length of the driven run. -/
theorem carrierBeginsOnIdleBus : Obligations.CarrierBeginsOnIdleBus := by
  intro s halfBits idleSlot free idle
  have event : exec (.carrierBegin halfBits idleSlot) s = .next (beginCarrier halfBits idleSlot s) := atEvent_free _ free
  refine ⟨fun driven => ?_, fun pulse => ?_⟩
  · have mark : (idleSlot && decide (14 ≤ halfBits) && decide (halfBits ≤ 18))
        = decide (idleSlot = true ∧ 14 ≤ halfBits ∧ halfBits ≤ 18) := by
      rw [Bool.and_assoc, ← Bool.decide_and, Bool.decide_and (p := idleSlot = true), Bool.decide_eq_true]
    rw [event, beginCarrier, if_pos ⟨idle, driven⟩, mark]
    rfl
  · rw [event, beginCarrier, if_neg (fun h => by omega)]

/-- Settles O59: timer by timer, running or stopped. -/
theorem timersExpire : Obligations.TimersExpire := by
  intro s free
  refine ⟨fun h => ?_, fun h => ?_, fun h => ?_, fun x h => ⟨fun named => ?_, fun unnamed => ?_⟩, fun h => ?_, fun h => ?_,
    fun h => ?_, fun x h => ?_⟩
  · obtain ⟨v, hv⟩ := ne_none_iff_some h
    refine (atEvent_free expireListen free).trans ?_
    rw [expireListen, hv]
    rfl
  · obtain ⟨v, hv⟩ := ne_none_iff_some h
    refine (atEvent_free expireHoldOff free).trans ?_
    rw [expireHoldOff, hv]
    rfl
  · obtain ⟨v, hv⟩ := ne_none_iff_some h
    refine (atEvent_free expirePresence free).trans ?_
    rw [expirePresence, hv]
    rfl
  · refine (atEvent_free (expireSilence x) free).trans ?_
    rw [expireSilence_running h, if_pos (by simpa using named)]
    rfl
  · refine (atEvent_free (expireSilence x) free).trans ?_
    rw [expireSilence_running h, if_neg (by simpa using unnamed)]
    rfl
  · refine (atEvent_free expireListen free).trans ?_
    rw [expireListen, h]
  · refine (atEvent_free expireHoldOff free).trans ?_
    rw [expireHoldOff, h]
  · refine (atEvent_free expirePresence free).trans ?_
    rw [expirePresence, h]
  · refine (atEvent_free (expireSilence x) free).trans ?_
    rw [expireSilence, h]

/-- Settles O60: the upset stands in the cell's record, and a host read finds it there. -/
theorem storageUpsetFailsVerification : Obligations.StorageUpsetFailsVerification := by
  intro s c v d check free store
  refine ⟨_, atEvent_free (upsetCell c v d check) free, cellData_writeCellData_same c d store.1,
    fun b other => cellData_writeCellData_ne s.mem d other, rfl, rfl, fun readable => ?_⟩
  have record : (upsetCell c v d check s).cells[c]
      = { s.cells[c] with version := v, check := check, upset := true } := by
    show (s.cells.set c.val { s.cells[c] with version := v, check := check, upset := true })[c] = _
    rw [getElem_set_fin, if_pos rfl]
  rw [statusAfterRead, record, if_pos readable, if_pos (.inl rfl)]

end Sys2Proof
end

section
/-! The host's requests: arguments read, answers given, acceptance and refusal. -/

namespace Sys2Proof.Machine

open Sys2Proof.Safety

/-! ### Arguments (R196) -/

theorem regionArg_region {b : Byte} {r : Region} (h : b.toNat = r.val) : regionArg [b] = some r := by
  have below : b.toNat < 16 := h ▸ r.isLt
  exact (dif_pos below).trans (congrArg some (Fin.ext h))

theorem regionArg_beyond {b : Byte} (h : 16 ≤ b.toNat) : regionArg [b] = none := dif_neg (Nat.not_lt.2 h)

theorem stageArg_cons (c : Byte) (d : CellData) : stageArg (c :: d.toList) = some (⟨c.toNat, c.isLt⟩, d) :=
  dif_pos (Vector.length_toList (xs := d))

theorem configureArg_good {n a : Byte} (h : (1 ≤ n.toNat ∧ n.toNat ≤ 7) ∧ (a = 0x00 ∨ a = 0x01)) :
    configureArg [n, a] = some (n.toNat, a == 0x01) := if_pos ⟨h.1.1, h.1.2, h.2⟩

theorem configureArg_bad {n a : Byte} (h : ¬ ((1 ≤ n.toNat ∧ n.toNat ≤ 7) ∧ (a = 0x00 ∨ a = 0x01))) :
    configureArg [n, a] = none := if_neg fun k => h ⟨⟨k.1, k.2.1⟩, k.2.2⟩

/-! ### Live tickets (R45, R46, R48) -/

theorem liveFor_isSome_iff (p : HostPort) (kind : RequestKind) (r : Region) :
    (liveFor p kind r).isSome = true ↔
      ∃ k t, p.tickets[(k : TicketNo)] = some t ∧ t.kind = kind ∧ t.arg = .region r ∧ t.state ≠ .done := by
  constructor
  · intro h
    obtain ⟨k, found⟩ := Option.isSome_iff_exists.1 h
    obtain ⟨t, used, live, test⟩ := findLive_some found
    simp only [Bool.and_eq_true, beq_iff_eq] at test
    exact ⟨k, t, used, test.1, test.2, live⟩
  · rintro ⟨k, t, used, kind, arg, live⟩
    cases found : liveFor p _ r with
    | some j => rfl
    | none =>
      have := findLive_none found k t used live
      simp [kind, arg] at this

theorem liveFor_eq_none_iff (p : HostPort) (kind : RequestKind) (r : Region) :
    liveFor p kind r = none ↔
      ∀ k t, p.tickets[(k : TicketNo)] = some t → t.kind = kind → t.arg = .region r → t.state = .done := by
  rw [← Option.not_isSome_iff_eq_none, liveFor_isSome_iff]
  constructor
  · exact fun h k t used kind arg => by_contra fun live => h ⟨k, t, used, kind, arg, live⟩
  · rintro h ⟨k, t, used, kind, arg, live⟩
    exact live (h k t used kind arg)

/-- This station holds a region, by its own number (R37). -/
theorem holdsRegion_iff (r : Region) (s : State) : holdsRegion r s = true ↔ s.locks[r].holder = some s.straps.number :=
  beq_iff_eq

/-! ### Completions and what they leave -/

/-- The completion of a live ticket, as the port it leaves. -/
theorem complete_completed {k : TicketNo} {t : Ticket} {o : Completion} {s : State} (used : s.port.tickets[k] = some t)
    (live : t.state ≠ .done) : complete k o s = s.withPort (completed k t o s.port) := complete_live used live

/-- What a completion leaves of the port. -/
theorem complete_keeps (k : TicketNo) (o : Completion) (s : State) :
    (complete k o s).port.order = s.port.order ∧ (complete k o s).port.phase = s.port.phase
      ∧ (complete k o s).port.watch = s.port.watch ∧ s.port.notices <+: (complete k o s).port.notices
      ∧ (complete k o s).port.noticesDropped = s.port.noticesDropped := by
  unfold complete
  split
  · split
    · exact ⟨rfl, rfl, rfl, List.prefix_append _ _, rfl⟩
    · exact ⟨rfl, rfl, rfl, List.prefix_rfl, rfl⟩
  · exact ⟨rfl, rfl, rfl, List.prefix_rfl, rfl⟩

theorem complete_ticket_ne {j k : TicketNo} (o : Completion) (s : State) (other : j ≠ k) :
    (complete k o s).port.tickets[j] = s.port.tickets[j] := by
  unfold complete
  split
  · split
    · show (s.port.tickets.set k.val _)[j] = _
      rw [getElem_set_fin, if_neg other]
    · rfl
  · rfl

/-- A ticket whose state is DONE stands, whatever is completed. -/
theorem complete_ticket_done {j : TicketNo} {u : Ticket} (k : TicketNo) (o : Completion) {s : State}
    (used : s.port.tickets[j] = some u) (done : u.state = .done) : (complete k o s).port.tickets[j] = some u := by
  by_cases h : j = k
  · subst j
    rw [complete_other fun t ht => by rw [Option.some.inj (ht.symm.trans used)]; exact done]
    exact used
  · rw [complete_ticket_ne o s h]
    exact used

theorem complete_ticket_live {k : TicketNo} {u : Ticket} (o : Completion) {s : State} (used : s.port.tickets[k] = some u)
    (live : u.state ≠ .done) : (complete k o s).port.tickets[k] = some { u with state := .done }
      ∧ .completion k u.kind o ∈ (complete k o s).port.notices := by
  rw [complete_live used live]
  refine ⟨?_, List.mem_append_right _ List.mem_cons_self⟩
  show (s.port.tickets.set k.val _)[k] = _
  rw [getElem_set_fin, if_pos rfl]

theorem completeAll_cons (k : TicketNo) (ks : List TicketNo) (o : Completion) (s : State) :
    completeAll (k :: ks) o s = completeAll ks o (complete k o s) := rfl

theorem completeAll_keeps (ks : List TicketNo) (o : Completion) (s : State) :
    (completeAll ks o s).port.order = s.port.order ∧ (completeAll ks o s).port.phase = s.port.phase
      ∧ (completeAll ks o s).port.watch = s.port.watch ∧ s.port.notices <+: (completeAll ks o s).port.notices
      ∧ (completeAll ks o s).port.noticesDropped = s.port.noticesDropped := by
  induction ks generalizing s with
  | nil => exact ⟨rfl, rfl, rfl, List.prefix_rfl, rfl⟩
  | cons k ks ih =>
    obtain ⟨order, phase, watch, notices, dropped⟩ := complete_keeps k o s
    obtain ⟨order', phase', watch', notices', dropped'⟩ := ih (complete k o s)
    rw [completeAll_cons]
    exact ⟨order'.trans order, phase'.trans phase, watch'.trans watch, notices.trans notices', dropped'.trans dropped⟩

theorem completeAll_ticket_done {j : TicketNo} {u : Ticket} (ks : List TicketNo) (o : Completion) {s : State}
    (used : s.port.tickets[j] = some u) (done : u.state = .done) : (completeAll ks o s).port.tickets[j] = some u := by
  induction ks generalizing s with
  | nil => exact used
  | cons k ks ih => exact ih (complete_ticket_done k o used done)

theorem completeAll_ticket_other {j : TicketNo} {ks : List TicketNo} (o : Completion) {s : State} (out : j ∉ ks) :
    (completeAll ks o s).port.tickets[j] = s.port.tickets[j] := by
  induction ks generalizing s with
  | nil => rfl
  | cons k ks ih =>
    rw [List.mem_cons, not_or] at out
    rw [completeAll_cons, ih out.2, complete_ticket_ne o s out.1]

/-- Each live ticket of the list is DONE with its completion in the queue. -/
theorem completeAll_ticket_live {j : TicketNo} {u : Ticket} {ks : List TicketNo} (o : Completion) {s : State}
    (listed : j ∈ ks)
    (used : s.port.tickets[j] = some u) (live : u.state ≠ .done) :
    (completeAll ks o s).port.tickets[j] = some { u with state := .done }
      ∧ .completion j u.kind o ∈ (completeAll ks o s).port.notices := by
  induction ks generalizing s with
  | nil => cases listed
  | cons k ks ih =>
    rw [completeAll_cons]
    by_cases h : j = k
    · subst j
      obtain ⟨done, notice⟩ := complete_ticket_live o used live
      exact ⟨completeAll_ticket_done ks o done rfl, (completeAll_keeps ks o _).2.2.2.1.subset notice⟩
    · exact ih ((List.mem_cons.1 listed).resolve_left h) (by rw [complete_ticket_ne o s h]; exact used)

/-- The tickets in use stand in the acceptance order, so that those of a kind of states are found there (R182). -/
theorem mem_ticketsIn {j : TicketNo} {u : Ticket} {s : State} {q : TicketState → Bool} (named : j ∈ s.port.order)
    (used : s.port.tickets[j] = some u) (test : q u.state = true) : j ∈ ticketsIn s.port q := by
  refine List.mem_filter.2 ⟨named, ?_⟩
  rw [used]
  exact test

/-! ### The acceptance of a LEAVE (R73, R86) -/

/-- What the bundle's loss at a LEAVE changes: the port by a completion, the bundle, and of the Transmit Selector the slot and
the sequence counter. -/
theorem leaveBundle_changes (s : State) : ∃ b slot seq,
    leaveBundle s = (((s.withPort (leaveBundle s).port).withBundle b).withTx { s.tx with slot := slot, seq := seq })
      ∧ (leaveBundle s).port.order = s.port.order ∧ s.port.notices <+: (leaveBundle s).port.notices
      ∧ ∀ (j : TicketNo) u, s.port.tickets[j] = some u → u.state = .queued → (leaveBundle s).port.tickets[j] = some u := by
  have same : ∃ b slot seq, s = (((s.withPort s.port).withBundle b).withTx { s.tx with slot := slot, seq := seq }) :=
    ⟨s.bundle, s.tx.slot, s.tx.seq, rfl⟩
  have abandoned : ∀ u : State, ∃ slot seq, abandonUnheardFragment u = u.withTx { u.tx with slot := slot, seq := seq } := by
    intro u
    unfold abandonUnheardFragment
    split
    · split
      · exact ⟨_, _, rfl⟩
      · exact ⟨u.tx.slot, u.tx.seq, rfl⟩
    · exact ⟨u.tx.slot, u.tx.seq, rfl⟩
  cases out : s.bundle.outgoing with
  | none =>
    have e : leaveBundle s = s := by simp only [leaveBundle, out]
    obtain ⟨b, slot, seq, h⟩ := same
    exact ⟨b, slot, seq, by rw [e]; exact h, by rw [e], by rw [e], fun j u used _ => by rw [e]; exact used⟩
  | some b =>
    by_cases begun : bundleBegun b s = true
    · have lost : completeCommit .lost s = (complete b.ticket .lost s).withBundle { s.bundle with outgoing := none } := by
        simp only [completeCommit, out]
      obtain ⟨p, hp⟩ := complete_port b.ticket .lost s
      have e : ∃ slot seq, leaveBundle s =
          (((s.withPort p).withBundle { s.bundle with outgoing := none }).withTx
            { s.tx with slot := slot, seq := seq }) := by
        unfold leaveBundle
        simp only [out, begun, Bool.not_true, Bool.false_eq_true, if_false, lost, hp]
        split
        · exact ⟨s.tx.slot, s.tx.seq, rfl⟩
        · obtain ⟨slot, seq, h⟩ := abandoned ((s.withPort p).withBundle { s.bundle with outgoing := none })
          exact ⟨slot, seq, h⟩
      obtain ⟨slot, seq, e⟩ := e
      have port : (leaveBundle s).port = (complete b.ticket .lost s).port := by rw [e, hp]; rfl
      obtain ⟨order, -, -, notices, -⟩ := complete_keeps b.ticket .lost s
      refine ⟨{ s.bundle with outgoing := none }, slot, seq, ?_, by rw [port]; exact order, by rw [port]; exact notices,
        fun j u used queued => ?_⟩
      · rw [port, hp]
        exact e
      · have other : j ≠ b.ticket := by
          rintro rfl
          simp [bundleBegun, -Fin.getElem_fin, used, queued] at begun
        rw [port, complete_ticket_ne _ _ other]
        exact used
    · have e : leaveBundle s = s := by simp [leaveBundle, out, begun]
      obtain ⟨b, slot, seq, h⟩ := same
      exact ⟨b, slot, seq, by rw [e]; exact h, by rw [e], by rw [e], fun j u used _ => by rw [e]; exact used⟩

/-! ### STATUS (R189) -/

/-- The two bytes of a set of sixteen flags, read back flag by flag. -/
theorem flag_of_bytes (f : Flags16) (x : Station) :
    ([f.extractLsb' 0 8, f.extractLsb' 8 8].getD (x.val / 8) 0).getLsbD (x.val % 8) = flag f x := by
  by_cases low : x.val < 8
  · have quotient : x.val / 8 = 0 := by omega
    have rest : x.val % 8 = x.val := by omega
    simp [quotient, rest, flag, low]
  · have quotient : x.val / 8 = 1 := by omega
    have rest : x.val % 8 < 8 := by omega
    have sum : 8 + x.val % 8 = x.val := by omega
    simp [quotient, flag, rest, sum]

/-- The doubt's three bytes in a STATUS body (12.4). -/
def doubtBytes (d : Doubt) : List Byte :=
  match d with
  | .clear => [0x00, 0xFF, 0x00]
  | .unknown => [0x01, 0xFF, 0x00]
  | .known x q => [0x02, stationByte x, q]

theorem statusBody_eq (s : State) : statusBody s =
    [BitVec.ofNat 8 s.straps.number.val, BitVec.ofNat 8 s.straps.rate.val, (stationStateCode s.mship.state).setWidth 8,
      BitVec.ofNat 8 (s.mship.repeatLimit.getD 0),
      (if s.mship.autoRejoin = none then 0xFF else if s.mship.autoRejoin = some true then 0x01 else 0x00)]
      ++ [(flagsOf (isMember s.mship.table)).extractLsb' 0 8, (flagsOf (isMember s.mship.table)).extractLsb' 8 8]
      ++ s.port.tickets.toList.map ticketByte
      ++ [BitVec.ofNat 8 s.port.notices.length, BitVec.ofNat 8 (reserved s.port),
          BitVec.ofNat 8 s.bundle.draft.length, (if s.bundle.outgoing = none then 0x00 else 0x01)]
      ++ doubtBytes s.apply.doubt ++ [if s.port.noticesDropped then 0x01 else 0x00] := by
  have rejoin : (match s.mship.autoRejoin with
      | none => 0xFF#8
      | some true => 0x01
      | some false => 0x00) = if s.mship.autoRejoin = none then 0xFF else if s.mship.autoRejoin
          = some true then 0x01 else 0x00 := by
    cases s.mship.autoRejoin with
    | none => rfl
    | some b => cases b <;> rfl
  have outgoing : (if s.bundle.outgoing.isSome then 0x01#8 else 0x00) = if s.bundle.outgoing = none then 0x00 else 0x01 := by
    cases s.bundle.outgoing <;> rfl
  rw [← rejoin, ← outgoing]
  rfl

/-! ### READ_MEMBERS (R97) -/

/-- The j-th byte of the i-th of a run of three-byte records. -/
theorem getD_flatMap_three {α : Type} {f : α → List Byte} (three : ∀ a, (f a).length = 3) (l : List α) (i : Nat)
    (h : i < l.length) {j : Nat} (hj : j < 3) : (l.flatMap f).getD (3 * i + j) 0 = (f l[i]).getD j 0 := by
  induction l generalizing i with
  | nil => cases h
  | cons a l ih =>
    rw [List.flatMap_cons]
    cases i with
    | zero => rw [List.getD_append _ _ _ _ (by rw [three]; omega)]; simp
    | succ i =>
      rw [List.getD_append_right _ _ _ _ (by rw [three]; omega), three, show 3 * (i + 1) + j - 3 = 3 * i + j by omega]
      exact ih i (by simpa using h)

theorem length_flatMap_three {α : Type} {f : α → List Byte} (three : ∀ a, (f a).length = 3) (l : List α) :
    (l.flatMap f).length = 3 * l.length := by
  induction l with
  | nil => rfl
  | cons a l ih =>
    rw [List.flatMap_cons, List.length_append, three, ih, List.length_cons]
    omega

theorem memberEntryBytes_length (e : MemberEntry) : (memberEntryBytes e).length = 3 := rfl

/-- The first byte of a membership entry: state and join place (R194). -/
theorem memberEntry_first (code : BitVec 2) (place : BitVec 4) :
    (code ++ 0#2 ++ place).extractLsb' 6 2 = code ∧ (code ++ 0#2 ++ place).extractLsb' 0 6 = place.setWidth 6 := by
  revert code place
  decide

end Sys2Proof.Machine

namespace Sys2Proof

open Sys2Proof.Machine Sys2Proof.Safety

/-- Settles O15: the code is none of those assigned. -/
theorem unassignedCodeRefused : Obligations.UnassignedCodeRefused := by
  intro s code args ⟨out, hand⟩ range
  have unassigned : assignedCode code = false := by
    simp only [assignedCode, Bool.or_eq_false_iff, Bool.and_eq_false_iff, decide_eq_false_iff_not, BitVec.le_def,
      BitVec.toNat_ofNat]
    omega
  refine (running_out out).trans ?_
  simp only [unassignedPoint, hand, unassigned]
  rfl

/-- Settles O16: the body field by field, the members by their flags. -/
theorem statusReportsStation : Obligations.StatusReportsStation := by
  intro s hand
  refine ⟨[(flagsOf (isMember s.mship.table)).extractLsb' 0 8, (flagsOf (isMember s.mship.table)).extractLsb' 8 8],
    doubtBytes s.apply.doubt, (exec_status hand).trans ?_, rfl, fun x => ?_, fun h => ?_, fun h => ?_, fun x q h => ?_⟩
  · unfold doStatus
    rw [statusBody_eq]
    rfl
  · rw [flag_of_bytes, flag_flagsOf, isMember, beq_eq_decide]
  · rw [h]; rfl
  · rw [h]; rfl
  · rw [h]; rfl

/-- Settles O17: by the arguments, then by the station state. -/
theorem configureSetsStation : Obligations.ConfigureSetsStation := by
  intro s n a hand
  refine ⟨fun good state => ?_, fun bad => ?_, fun good state => ?_⟩
  · rw [exec_configure hand, doConfigure, configureArg_good good]
    dsimp only
    rw [if_pos state]
    rfl
  · rw [exec_configure hand, doConfigure, configureArg_bad bad]
    rfl
  · rw [exec_configure hand, doConfigure, configureArg_good good]
    dsimp only
    rw [if_neg state]
    rfl

/-- Settles O19: check by check, then by whether the cell is staged. -/
theorem stageCellFillsDraft : Obligations.StageCellFillsDraft := by
  intro s c d hand
  dsimp only
  have exec_eq : exec .stageCell s = .next (if s.mship.state ≠ .member then refuse .wrongState s
      else if !holdsRegion (regionOf ⟨c.toNat, c.isLt⟩) s then refuse .notHolder s
      else if !(s.bundle.draft.any (·.cell == ⟨c.toNat, c.isLt⟩) || decide (s.bundle.draft.length < 32)) then
        refuse .draftFull s
      else answerDraft (stageInto ⟨c.toNat, c.isLt⟩ d s.bundle.draft) s) := by
    rw [exec_stageCell hand, doStageCell, stageArg_cons]
    rfl
  have staged_iff := draft_any_cell_iff ⟨c.toNat, c.isLt⟩ s.bundle.draft
  have holds_iff := holdsRegion_iff (regionOf ⟨c.toNat, c.isLt⟩) s
  refine ⟨fun member holds staged => ?_, fun member holds new room => ?_, fun other => ?_, fun member other => ?_,
    fun member holds new full => ?_⟩
  · rw [exec_eq, if_neg (not_not.2 member), if_neg (by rw [holds_iff.2 holds]; nofun),
      if_neg (by rw [staged_iff.2 staged]; nofun),
      answerDraft, stageInto, if_pos (staged_iff.2 staged), List.length_map]
    rfl
  · rw [exec_eq, if_neg (not_not.2 member), if_neg (by rw [holds_iff.2 holds]; nofun), if_neg (by simp [room]),
      answerDraft, stageInto_of_not_staged d new, List.length_append]
    rfl
  · rw [exec_eq, if_pos other]
    rfl
  · rw [exec_eq, if_neg (not_not.2 member), if_pos (by simpa using mt holds_iff.1 other)]
    rfl
  · have unstaged := mt staged_iff.1 new
    rw [exec_eq, if_neg (not_not.2 member), if_neg (by rw [holds_iff.2 holds]; nofun),
      if_pos (by rw [Bool.eq_false_iff.2 unstaged, decide_eq_false (Nat.not_lt.2 full)]; rfl)]
    rfl

/-- Settles O21: by what stands at the head of the queue. -/
theorem takeNoticeRemovesOldest : Obligations.TakeNoticeRemovesOldest := by
  intro s hand
  refine ⟨fun empty => ?_, fun k kind o rest oldest => ?_, fun n rest oldest other => ?_⟩
  · rw [exec_takeNotice hand, doTakeNotice, empty]
    rfl
  · have filters_agree : (fun j : TicketNo => j != k) = fun j => decide (j ≠ k) := by
      funext j
      rw [Bool.eq_iff_iff, bne_iff_ne, decide_eq_true_iff]
    rw [exec_takeNotice hand, doTakeNotice, oldest]
    dsimp only
    rw [← filters_agree, dropOldest, oldest]
    rfl
  · rw [exec_takeNotice hand, doTakeNotice, oldest]
    dsimp only
    have plain : dropOldest n s.port = { s.port with notices := rest } := by
      cases n with
      | completion k kind o => exact absurd rfl (other k kind o)
      | _ => simp only [dropOldest, oldest, List.tail_cons]
    rw [plain]
    rfl

/-- Settles O23: the region by its number, the members record by record. -/
theorem tablesReadBack : Obligations.TablesReadBack := by
  intro s
  refine ⟨fun b hand => ⟨fun r h => ?_, fun beyond => ?_⟩, fun hand => ?_⟩
  · rw [exec_readRegion hand, doReadRegion, regionArg_region h]
    cases holder : s.locks[r].holder with
    | some x => simp only [regionEntryBytes, holder, optStationByte]; rfl
    | none => simp only [regionEntryBytes, holder, optStationByte]; rfl
  · rw [exec_readRegion hand, doReadRegion, regionArg_beyond beyond]
    rfl
  · refine ⟨s.mship.table.toList.flatMap memberEntryBytes, exec_readMembers hand, ?_, fun x => ?_⟩
    · rw [length_flatMap_three memberEntryBytes_length, Vector.length_toList]
    · have byte : ∀ j < 3, (s.mship.table.toList.flatMap memberEntryBytes).getD (3 * x.val + j) 0
          = (memberEntryBytes s.mship.table[x]).getD j 0 := fun j hj => by
        rw [getD_flatMap_three memberEntryBytes_length _ x.val (by simp) hj]
        simp
      obtain ⟨state, place⟩ := memberEntry_first (entryStateCode s.mship.table[x].state)
        (BitVec.ofNat 4 (s.mship.table[x].joinPlace.getD 15))
      have first := byte 0 (by decide)
      rw [Nat.add_zero] at first
      dsimp only
      rw [first, byte 1 (by decide), byte 2 (by decide)]
      refine ⟨state, fun p hp small => place.trans ?_, fun none => place.trans ?_, rfl, rfl⟩
      · rw [hp]
        apply BitVec.eq_of_toNat_eq
        simp only [Option.getD_some, BitVec.toNat_setWidth, BitVec.toNat_ofNat]
        omega
      · rw [none]
        rfl

/-- Settles O24: by the station state, then by whether a ticket can be issued. -/
theorem joinAccepted : Obligations.JoinAccepted := by
  intro s hand
  refine ⟨fun k state issuable => ?_, fun state => ?_, fun state none => ?_⟩
  · rw [exec_join hand, doJoin, if_neg (not_not.2 state), withTicket_issuable _ issuable]
    rfl
  · rw [exec_join hand, doJoin, if_pos state]
    rfl
  · rw [exec_join hand, doJoin, if_neg (not_not.2 state), withTicket_none _ none]

/-- Settles O25: check by check. -/
theorem claimAccepted : Obligations.ClaimAccepted := by
  intro s b hand
  refine ⟨fun beyond => ?_, fun r h => ?_⟩
  · rw [exec_claim hand, doClaim, regionArg_beyond beyond]
    rfl
  · have already_iff : (holdsRegion r s || s.locks[r].waiters.contains (self s) || (liveFor s.port .claim r).isSome) = true ↔
        s.locks[r].holder = some s.straps.number ∨ s.straps.number ∈ s.locks[r].waiters
          ∨ ∃ k t, s.port.tickets[(k : TicketNo)] = some t ∧ t.kind = .claim ∧ t.arg = .region r ∧ t.state ≠ .done := by
      rw [Bool.or_eq_true, Bool.or_eq_true, holdsRegion_iff, List.contains_iff_mem, liveFor_isSome_iff, or_assoc]
      rfl
    have exec_eq : exec .claim s = .next (if s.mship.state ≠ .member then refuse .wrongState s
        else if (holdsRegion r s || s.locks[r].waiters.contains (self s) || (liveFor s.port .claim r).isSome) = true then
          refuse .already s
        else withTicket (fun k => accept k .claim (.region r) none (.claim r)) s) := by
      rw [exec_claim hand, doClaim, regionArg_region h]
    refine ⟨fun k member new issuable => ?_, fun other => ?_, fun member already => ?_, fun member new none => ?_⟩
    · rw [exec_eq, if_neg (not_not.2 member), if_neg (mt already_iff.1 new), withTicket_issuable _ issuable]
      rfl
    · rw [exec_eq, if_pos other]
      rfl
    · rw [exec_eq, if_neg (not_not.2 member), if_pos (already_iff.2 already)]
      rfl
    · rw [exec_eq, if_neg (not_not.2 member), if_neg (mt already_iff.1 new), withTicket_none _ none]

/-- Settles O26: check by check. -/
theorem releaseAccepted : Obligations.ReleaseAccepted := by
  intro s b hand
  refine ⟨fun beyond => ?_, fun r h => ?_⟩
  · rw [exec_release hand, doRelease, regionArg_beyond beyond]
    rfl
  · have live_iff : ((liveFor s.port .release r).isSome || (liveFor s.port .withdraw r).isSome) = true ↔
        ∃ k t, s.port.tickets[(k : TicketNo)] = some t ∧ (t.kind = .release ∨ t.kind = .withdraw)
          ∧ t.arg = .region r ∧ t.state ≠ .done := by
      rw [Bool.or_eq_true, liveFor_isSome_iff, liveFor_isSome_iff]
      constructor
      · rintro (⟨k, t, used, kind, rest⟩ | ⟨k, t, used, kind, rest⟩)
        · exact ⟨k, t, used, .inl kind, rest⟩
        · exact ⟨k, t, used, .inr kind, rest⟩
      · rintro ⟨k, t, used, kind | kind, rest⟩
        · exact .inl ⟨k, t, used, kind, rest⟩
        · exact .inr ⟨k, t, used, kind, rest⟩
    have staged_iff : s.bundle.draft.any (fun e => regionOf e.cell == r) = true ↔
        ∃ e ∈ s.bundle.draft, regionOf e.cell = r := by
      simp only [List.any_eq_true, beq_iff_eq]
    have exec_eq : exec .release s = .next (if s.mship.state ≠ .member then refuse .wrongState s
        else if (!holdsRegion r s) = true then refuse .notHolder s
        else if ((liveFor s.port .release r).isSome || (liveFor s.port .withdraw r).isSome) = true then refuse .already s
        else if s.bundle.draft.any (fun e => regionOf e.cell == r) = true then refuse .draftOpen s
        else withTicket (fun k => accept k .release (.region r) none (.yield r)) s) := by
      rw [exec_release hand, doRelease, regionArg_region h]
    have held : s.locks[r].holder = some s.straps.number → ¬ (!holdsRegion r s) = true := fun holds => by
      simp [(holdsRegion_iff r s).2 holds]
    refine ⟨fun k member holds new clear issuable => ?_, fun other => ?_, fun member other => ?_,
      fun member holds live => ?_, fun member holds new staged => ?_, fun member holds new clear none => ?_⟩
    · rw [exec_eq, if_neg (not_not.2 member), if_neg (held holds), if_neg (mt live_iff.1 new),
        if_neg (mt staged_iff.1 clear), withTicket_issuable _ issuable]
      rfl
    · rw [exec_eq, if_pos other]
      rfl
    · rw [exec_eq, if_neg (not_not.2 member), if_pos (by simpa using mt (holdsRegion_iff r s).1 other)]
      rfl
    · rw [exec_eq, if_neg (not_not.2 member), if_neg (held holds), if_pos (live_iff.2 live)]
      rfl
    · rw [exec_eq, if_neg (not_not.2 member), if_neg (held holds), if_neg (mt live_iff.1 new),
        if_pos (staged_iff.2 staged)]
      rfl
    · rw [exec_eq, if_neg (not_not.2 member), if_neg (held holds), if_neg (mt live_iff.1 new),
        if_neg (mt staged_iff.1 clear), withTicket_none _ none]

/-- Settles O27: check by check, then by the claim's state. -/
theorem withdrawGivesUpClaim : Obligations.WithdrawGivesUpClaim := by
  intro s b hand
  refine ⟨fun beyond => ?_, fun r h => ?_⟩
  · rw [exec_withdraw hand, doWithdraw, regionArg_beyond beyond]
    rfl
  · refine ⟨fun other => ?_, fun member dead => ?_, fun c t member sole kind arg => ?_⟩
    · rw [exec_withdraw hand, doWithdraw, regionArg_region h]
      dsimp only
      rw [if_pos other]
      rfl
    · rw [exec_withdraw hand, doWithdraw, regionArg_region h]
      dsimp only
      rw [if_neg (not_not.2 member), (liveFor_eq_none_iff s.port .claim r).2 dead]
      rfl
    · have claim : liveFor s.port .claim r = some c := kind ▸ liveFor_sole sole arg
      obtain ⟨used, live, -⟩ := sole
      have exec_eq : exec .withdraw s = .next (if (liveFor s.port .withdraw r).isSome = true then refuse .already s
          else if t.state = .queued then withdrawNow c s
          else withTicket (fun k => accept k .withdraw (.region r) (some c) (.yield r)) s) := by
        rw [exec_withdraw hand, doWithdraw, regionArg_region h]
        dsimp only
        rw [if_neg (not_not.2 member), claim]
        dsimp only
        rw [used]
        simp only [Option.any_some, beq_iff_eq]
      have withdrawing_iff := liveFor_isSome_iff s.port .withdraw r
      refine ⟨fun withdrawing => ?_, fun new queued => ?_, fun new sent k issuable => ?_, fun new sent none => ?_⟩
      · rw [exec_eq, if_pos (withdrawing_iff.2 withdrawing)]
        rfl
      · have filters_agree : (fun e : SendEntry => e.ticket != some c) = fun e => decide (e.ticket ≠ some c) := by
          funext e
          rw [Bool.eq_iff_iff, bne_iff_ne, decide_eq_true_iff]
        rw [exec_eq, if_neg (mt withdrawing_iff.1 new), if_pos queued, withdrawNow, filters_agree,
          complete_completed (s := s.withTx
            { s.tx with sendList := s.tx.sendList.filter fun e => decide (e.ticket ≠ some c) })
            used live]
        rfl
      · rw [exec_eq, if_neg (mt withdrawing_iff.1 new), if_neg sent, withTicket_issuable _ issuable]
        rfl
      · rw [exec_eq, if_neg (mt withdrawing_iff.1 new), if_neg sent, withTicket_none _ none]

/-- Settles O28: check by check. -/
theorem commitMovesDraft : Obligations.CommitMovesDraft := by
  intro s hand
  have empty_iff : s.bundle.draft.isEmpty = true ↔ s.bundle.draft = [] := List.isEmpty_iff
  have pending_iff : s.bundle.outgoing.isSome = true ↔ s.bundle.outgoing ≠ none := Option.isSome_iff_ne_none
  refine ⟨fun k member draft free issuable => ?_, fun other => ?_, fun member draft => ?_,
    fun member draft pending => ?_, fun member draft free none => ?_⟩
  · rw [exec_commit hand, doCommit, if_neg (not_not.2 member), if_neg (mt empty_iff.1 draft),
      if_neg (mt pending_iff.1 (not_not.2 free)), withTicket_issuable _ issuable]
    rfl
  · rw [exec_commit hand, doCommit, if_pos other]
    rfl
  · rw [exec_commit hand, doCommit, if_neg (not_not.2 member), if_pos (empty_iff.2 draft)]
    rfl
  · rw [exec_commit hand, doCommit, if_neg (not_not.2 member), if_neg (mt empty_iff.1 draft),
      if_pos (pending_iff.2 pending)]
    rfl
  · rw [exec_commit hand, doCommit, if_neg (not_not.2 member), if_neg (mt empty_iff.1 draft),
      if_neg (mt pending_iff.1 (not_not.2 free)), withTicket_none _ none]

end Sys2Proof
end

section
/-! SIGNAL and LEAVE accepted, and the check point of a request in hand before every event. -/

namespace Sys2Proof.Machine

open Sys2Proof.Safety

/-! ### SIGNAL's arguments (R130) -/

theorem signalArg_all {n : Station} {bytes : List Byte} (count : 1 ≤ bytes.length ∧ bytes.length ≤ 8) :
    signalArg n (0xFF :: bytes) = some (none, bytes) := (if_pos count).trans (if_pos rfl)

theorem signalArg_one {n x : Station} {b : Byte} {bytes : List Byte} (count : 1 ≤ bytes.length ∧ bytes.length ≤ 8)
    (aim : b.toNat = x.val) (other : x ≠ n) : signalArg n (b :: bytes) = some (some x, bytes) := by
  have below : b.toNat < 16 := aim ▸ x.isLt
  have one : b ≠ 0xFF := by
    rintro rfl
    exact absurd below (by decide)
  have target : (⟨b.toNat, below⟩ : Station) = x := Fin.ext aim
  refine (if_pos count).trans ((if_neg one).trans ((dif_pos below).trans ?_))
  rw [target, if_neg other]

theorem signalArg_bad {n : Station} {b : Byte} {bytes : List Byte}
    (bad : ¬ ((1 ≤ bytes.length ∧ bytes.length ≤ 8) ∧ (b = 0xFF ∨ (b.toNat < 16 ∧ b.toNat ≠ n.val)))) :
    signalArg n (b :: bytes) = none := by
  by_cases count : 1 ≤ bytes.length ∧ bytes.length ≤ 8
  · have aim := fun h => bad ⟨count, h⟩
    rw [imp_false, not_or] at aim
    refine (if_pos count).trans ((if_neg aim.1).trans ?_)
    by_cases below : b.toNat < 16
    · rw [dif_pos below, if_pos (Fin.ext (not_not.1 fun h => aim.2 ⟨below, h⟩))]
    · rw [dif_neg below]
  · exact if_neg count

/-! ### The check point before every event (R181) -/

/-- The port holds a response. -/
def Holding (s : State) : Prop := ∃ r, s.port.phase = .holding r

theorem respond_holding (c : ResultCode) (b : List Byte) (s : State) : Holding (respond c b s) := ⟨_, rfl⟩

theorem refuse_holding (c : ResultCode) (s : State) : Holding (refuse c s) := ⟨_, rfl⟩

theorem ite_holding {p : Prop} [Decidable p] {s t : State} (hs : Holding s) (ht : Holding t) :
    Holding (if p then s else t) := by
  split <;> assumption

theorem withTicket_holding {f : TicketNo → State → State} {s : State} (h : ∀ k, Holding (f k s)) :
    Holding (withTicket f s) := by
  unfold withTicket
  split
  · exact h _
  · exact refuse_holding _ s

theorem accept_holding (k : TicketNo) (kind : RequestKind) (arg : TicketArg) (link : Option TicketNo) (f : SendFrame)
    (s : State) : Holding (accept k kind arg link f s) := ⟨_, rfl⟩

theorem doConfigure_holding (args : List Byte) (s : State) : Holding (doConfigure args s) := by
  unfold doConfigure
  split
  · exact refuse_holding _ s
  · exact ite_holding (respond_holding _ _ _) (refuse_holding _ s)

theorem doReadCells_holding (args : List Byte) (s : State) : Holding (doReadCells args s) := by
  unfold doReadCells
  split
  · exact refuse_holding _ s
  · exact respond_holding _ _ _

theorem doReadRegion_holding (args : List Byte) (s : State) : Holding (doReadRegion args s) := by
  unfold doReadRegion
  split
  · exact refuse_holding _ s
  · exact respond_holding _ _ s

theorem doTakeNotice_holding (args : List Byte) (s : State) : Holding (doTakeNotice args s) := by
  unfold doTakeNotice
  split
  · exact refuse_holding _ s
  · exact respond_holding _ _ _

theorem doSetWatch_holding (args : List Byte) (s : State) : Holding (doSetWatch args s) := by
  unfold doSetWatch
  split
  · exact refuse_holding _ s
  · exact respond_holding _ _ _

theorem doStageCell_holding (args : List Byte) (s : State) : Holding (doStageCell args s) := by
  unfold doStageCell
  split
  · exact refuse_holding _ s
  · exact ite_holding (refuse_holding _ s) (ite_holding (refuse_holding _ s)
      (ite_holding (refuse_holding _ s) (respond_holding _ _ _)))

theorem doUnstageCell_holding (args : List Byte) (s : State) : Holding (doUnstageCell args s) := by
  unfold doUnstageCell
  split
  · exact refuse_holding _ s
  · exact ite_holding (respond_holding _ _ _) (refuse_holding _ s)

theorem doJoin_holding (args : List Byte) (s : State) : Holding (doJoin args s) :=
  ite_holding (refuse_holding _ s) (withTicket_holding fun _ => accept_holding _ _ _ _ _ _)

theorem acceptLeave_holding (k : TicketNo) (s : State) : Holding (acceptLeave k s) := by
  unfold acceptLeave
  exact accept_holding _ _ _ _ _ _

theorem doLeave_holding (args : List Byte) (s : State) : Holding (doLeave args s) :=
  ite_holding (refuse_holding _ s) (withTicket_holding fun k => acceptLeave_holding k s)

theorem doClaim_holding (args : List Byte) (s : State) : Holding (doClaim args s) := by
  unfold doClaim
  split
  · exact refuse_holding _ s
  · exact ite_holding (refuse_holding _ s) (ite_holding (refuse_holding _ s)
      (withTicket_holding fun _ => accept_holding _ _ _ _ _ _))

theorem doRelease_holding (args : List Byte) (s : State) : Holding (doRelease args s) := by
  unfold doRelease
  split
  · exact refuse_holding _ s
  · exact ite_holding (refuse_holding _ s) (ite_holding (refuse_holding _ s) (ite_holding (refuse_holding _ s)
      (ite_holding (refuse_holding _ s) (withTicket_holding fun _ => accept_holding _ _ _ _ _ _))))

theorem doWithdraw_holding (args : List Byte) (s : State) : Holding (doWithdraw args s) := by
  unfold doWithdraw
  split
  · exact refuse_holding _ s
  · refine ite_holding (refuse_holding _ s) ?_
    split
    · exact refuse_holding _ s
    · exact ite_holding (refuse_holding _ s) (ite_holding (respond_holding _ _ _)
        (withTicket_holding fun _ => accept_holding _ _ _ _ _ _))

theorem doCommit_holding (args : List Byte) (s : State) : Holding (doCommit args s) :=
  ite_holding (refuse_holding _ s) (ite_holding (refuse_holding _ s) (ite_holding (refuse_holding _ s)
    (withTicket_holding fun _ => accept_holding _ _ _ _ _ _)))

theorem doSignal_holding (args : List Byte) (s : State) : Holding (doSignal args s) := by
  unfold doSignal
  split
  · exact refuse_holding _ s
  · exact ite_holding (refuse_holding _ s) (ite_holding (refuse_holding _ s)
      (withTicket_holding fun _ => accept_holding _ _ _ _ _ _))

theorem choice_holding {p : Prop} [Decidable p] {f g : State → State} {s : State} (hf : Holding (f s)) (hg : Holding (g s)) :
    Holding ((if p then f else g) s) := by
  split <;> assumption

/-- After its check point every request has its response held. -/
theorem requestPoint_holding (rq : Request) (s : State) : Holding (requestPoint rq s) :=
  choice_holding (respond_holding _ _ _) <| choice_holding (doConfigure_holding _ s) <|
  choice_holding (doReadCells_holding _ s) <| choice_holding (doReadRegion_holding _ s) <|
  choice_holding (respond_holding _ _ s) <| choice_holding (doTakeNotice_holding _ s) <|
  choice_holding (doSetWatch_holding _ s) <| choice_holding (doStageCell_holding _ s) <|
  choice_holding (doUnstageCell_holding _ s) <| choice_holding (respond_holding _ _ _) <|
  choice_holding (doJoin_holding _ s) <| choice_holding (doLeave_holding _ s) <|
  choice_holding (doClaim_holding _ s) <| choice_holding (doRelease_holding _ s) <|
  choice_holding (doWithdraw_holding _ s) <| choice_holding (doCommit_holding _ s) <|
  choice_holding (doSignal_holding _ s) <| refuse_holding _ s

/-- A choice between two commands whose check points are a choice between two effects. -/
theorem choice_exec {p : Prop} [Decidable p] {c d : Instr} {f g : State → State} {s : State}
    (yes : p → exec c s = .next (f s)) (no : ¬ p → exec d s = .next (g s)) :
    exec (if p then c else d) s = .next ((if p then f else g) s) := by
  by_cases h : p
  · rw [if_pos h, if_pos h]
    exact yes h
  · rw [if_neg h, if_neg h]
    exact no h

/-- A code that is none of the seventeen is assigned to no request (12.4). -/
theorem unassigned_of_ne {code : Byte} (n : code ∉ [0x01#8, 0x02, 0x03, 0x04, 0x05, 0x06, 0x07, 0x08, 0x09, 0x0A, 0x10, 0x11,
    0x12, 0x13, 0x14, 0x15, 0x16]) : assignedCode code = false := by
  revert code
  decide

/-- The command of a request's code carries out the request (R181). -/
theorem exec_requestCommand {rq : Request} {s : State} (out : Running s) (hand : s.port.phase = .working rq) :
    exec (requestCommand rq.code) s = .next (requestPoint rq s) := by
  have inHand : ∀ {code}, rq.code = code → InHand code rq.args s := fun e => ⟨out, by rw [hand, ← e]⟩
  unfold requestCommand requestPoint
  refine choice_exec (fun e => exec_status (inHand e)) fun n1 => choice_exec (fun e => exec_configure (inHand e)) fun n2 =>
    choice_exec (fun e => exec_readCells (inHand e)) fun n3 => choice_exec (fun e => exec_readRegion (inHand e)) fun n4 =>
    choice_exec (fun e => exec_readMembers (inHand e)) fun n5 => choice_exec (fun e => exec_takeNotice (inHand e)) fun n6 =>
    choice_exec (fun e => exec_setWatch (inHand e)) fun n7 => choice_exec (fun e => exec_stageCell (inHand e)) fun n8 =>
    choice_exec (fun e => exec_unstageCell (inHand e)) fun n9 =>
    choice_exec (fun e => exec_discardDraft (inHand e)) fun n10 => choice_exec (fun e => exec_join (inHand e)) fun n11 =>
    choice_exec (fun e => exec_leave (inHand e)) fun n12 => choice_exec (fun e => exec_claim (inHand e)) fun n13 =>
    choice_exec (fun e => exec_release (inHand e)) fun n14 => choice_exec (fun e => exec_withdraw (inHand e)) fun n15 =>
    choice_exec (fun e => exec_commit (inHand e)) fun n16 => choice_exec (fun e => exec_signal (inHand e)) fun n17 => ?_
  have unassigned : assignedCode rq.code = false := unassigned_of_ne (by
    simp only [List.mem_cons, List.not_mem_nil, or_false, not_or]
    exact ⟨n1, n2, n3, n4, n5, n6, n7, n8, n9, n10, n11, n12, n13, n14, n15, n16, n17⟩)
  refine (running_out out).trans ?_
  simp only [unassignedPoint, hand, unassigned, Bool.false_eq_true, if_false]

/-- Every event is one at whose front the check point comes. -/
theorem exec_event {c : Instr} (h : isEvent c = true) : ∃ f : State → State, ∀ s, exec c s = atEvent f s := by
  cases c with
  | carrierBegin n idle => exact ⟨_, fun _ => rfl⟩
  | transmissionStart slots => exact ⟨_, fun _ => rfl⟩
  | presenceFrame h => exact ⟨_, fun s => rfl⟩
  | joinFrame h r => exact ⟨_, fun s => rfl⟩
  | leaveFrame h => exact ⟨_, fun s => rfl⟩
  | dropFrame h t r => exact ⟨_, fun s => rfl⟩
  | claimFrame h r => exact ⟨_, fun s => rfl⟩
  | yieldFrame h r => exact ⟨_, fun s => rfl⟩
  | writeFrame h w => exact ⟨_, fun s => rfl⟩
  | snapStateFrame h t im => exact ⟨_, fun s => rfl⟩
  | snapCellsFrame h t g rs => exact ⟨_, fun s => rfl⟩
  | mendFrame h t c => exact ⟨_, fun s => rfl⟩
  | mendReplyFrame h t c answer => exact ⟨_, fun s => rfl⟩
  | signalFrame h t bs => exact ⟨_, fun s => rfl⟩
  | damagedFrame heard => exact ⟨_, fun s => rfl⟩
  | collision m heard => exact ⟨_, fun s => rfl⟩
  | ackWindowEnd map => exact ⟨_, fun s => rfl⟩
  | listenTimerExpiry => exact ⟨_, fun s => rfl⟩
  | silenceTimerExpiry x => exact ⟨_, fun s => rfl⟩
  | presenceTimerExpiry => exact ⟨_, fun s => rfl⟩
  | mendWindowExpiry => exact ⟨_, fun s => rfl⟩
  | holdOffExpiry => exact ⟨_, fun s => rfl⟩
  | storageUpset c v d check => exact ⟨_, fun s => rfl⟩
  | _ => cases h

/-! ### REQUEST transactions (R178, R179) -/

theorem frameRequest_good {code len : Byte} {args : List Byte} (first : code ≠ 0x00) (last : code.toNat ≤ 31)
    (short : len.toNat ≤ 33) (count : args.length = len.toNat) (fixed : ∀ n, fixedLength code = some n → len.toNat = n) :
    frameRequest (code :: len :: args) = some { code := code, args := args } := by
  have positive : code.toNat ≠ 0 := fun h => first (BitVec.eq_of_toNat_eq h)
  refine if_pos ⟨?_, ?_, short, count, ?_⟩
  · rw [BitVec.le_def]
    exact Nat.one_le_iff_ne_zero.2 positive
  · rw [BitVec.le_def]
    exact last
  · cases h : fixedLength code with
    | none => rfl
    | some n => exact beq_iff_eq.2 (fixed n h).symm

theorem frameRequest_bad {code : Byte} {rest : List Byte} (bad : 31 < code.toNat ∨ rest = []
      ∨ ∃ len args, rest = len :: args
          ∧ (33 < len.toNat ∨ args.length ≠ len.toNat ∨ ∃ n, fixedLength code = some n ∧ len.toNat ≠ n)) :
    frameRequest (code :: rest) = none := by
  cases rest with
  | nil => rfl
  | cons len args =>
    refine if_neg ?_
    rintro ⟨-, last, short, count, fixed⟩
    rw [BitVec.le_def] at last
    obtain high | empty | ⟨len', args', e, wrong⟩ := bad
    · exact absurd last (Nat.not_le.2 high)
    · cases empty
    · obtain ⟨rfl, rfl⟩ := List.cons.inj e
      obtain long | other | ⟨n, its, differ⟩ := wrong
      · exact absurd short (Nat.not_le.2 long)
      · exact other count
      · rw [its] at fixed
        exact differ (beq_iff_eq.1 fixed).symm

end Sys2Proof.Machine

namespace Sys2Proof

open Sys2Proof.Machine Sys2Proof.Safety

/-- Settles O14: the framing check by check, then the check point of the request taken before any event. -/
theorem requestTakenWhenIdle : Obligations.RequestTakenWhenIdle := by
  refine ⟨fun s code rest out poll fetch => ?_, fun s t rq out hand taken => ?_⟩
  · have exec_eq : exec (.requestTransaction (code :: rest)) s =
        .next (takeRequest (code :: rest) (setSdo (statusByte s :: List.replicate rest.length 0) s)) := by
      refine (running_out out).trans ?_
      rw [requestPort, if_neg poll, if_neg fetch]
    have phase_eq : (setSdo (statusByte s :: List.replicate rest.length 0) s).port.phase = s.port.phase := rfl
    dsimp only
    refine ⟨fun args framed good idle => ?_, fun bad idle => ?_, fun busy => ?_⟩
    · have count : args.length = (BitVec.ofNat 8 args.length).toNat := by
        by_contra other
        exact good (.inr (.inr ⟨_, _, framed, .inr (.inl other)⟩))
      have request : frameRequest (code :: rest) = some { code := code, args := args } := by
        rw [framed]
        refine frameRequest_good poll (Nat.not_lt.1 fun h => good (.inl h)) (Nat.not_lt.1 fun h => ?_) count
          fun n fixed => by_contra fun h => ?_
        · exact good (.inr (.inr ⟨_, _, framed, .inl h⟩))
        · exact good (.inr (.inr ⟨_, _, framed, .inr (.inr ⟨n, fixed, h⟩)⟩))
      rw [exec_eq, takeRequest, phase_eq, idle, request]
      rfl
    · rw [exec_eq, takeRequest, phase_eq, idle, frameRequest_bad bad]
      rfl
    · rw [exec_eq, takeRequest, phase_eq]
      split
      · exact absurd ‹_› busy
      · rfl
      · rfl
  · rw [exec_requestCommand out hand] at taken
    obtain rfl := Host.Outcome.next.inj taken
    have holding := requestPoint_holding rq s
    have done : carryOut (requestPoint rq s) = requestPoint rq s := by
      obtain ⟨r, held⟩ := holding
      exact carryOut_free fun rq' h => by rw [held] at h; cases h
    have straps : (requestPoint rq s).straps = s.straps := congrArg Prod.fst (busSide_requestPoint rq s)
    have out' : Running (requestPoint rq s) := by rw [Running, straps]; exact out
    refine ⟨holding, fun c event => ?_, fun empty => ?_⟩
    · obtain ⟨f, hf⟩ := exec_event event
      rw [hf, hf, atEvent_running f out, atEvent_running f out', done, carryOut_working hand]
    · have pending : (requestPoint rq s).pending = [] :=
        ((requestPoint_moves (a := .all) trivial (fun _ => trivial) s).pending).trans empty
      have inReset : s.straps.inReset = false := out
      have inReset' : (requestPoint rq s).straps.inReset = false := out'
      simp only [step, empty, pending, tick, inReset, inReset', Bool.false_eq_true, if_false, carryOut_working hand, done]

/-- Settles O29: check by check; a target byte names no station, every station, or one. -/
theorem signalAccepted : Obligations.SignalAccepted := by
  intro s b bytes hand
  have exec_eq : ∀ a, signalArg s.straps.number (b :: bytes) = some a → exec .signal s = .next
      (if s.mship.state ≠ .member then refuse .wrongState s
        else if (!(a.1.all (isMember s.mship.table))) = true then refuse .noTarget s
        else withTicket (fun k => accept k .signal (.target a.1) none (.signal a.1 a.2)) s) := fun a read => by
    rw [exec_signal hand, doSignal, self, read]
  -- a good argument names every station or one other than this
  have read : ((1 ≤ bytes.length ∧ bytes.length ≤ 8) ∧ (b = 0xFF ∨ (b.toNat < 16 ∧ b.toNat ≠ s.straps.number.val))) →
      (b = 0xFF ∧ signalArg s.straps.number (b :: bytes) = some (none, bytes))
        ∨ ∃ x : Station, b.toNat = x.val ∧ signalArg s.straps.number (b :: bytes) = some (some x, bytes) := by
    rintro ⟨count, rfl | ⟨below, other⟩⟩
    · exact .inl ⟨rfl, signalArg_all count⟩
    · exact .inr ⟨⟨b.toNat, below⟩, rfl, signalArg_one count rfl fun h => other (congrArg Fin.val h)⟩
  have all_not_one : b = 0xFF → ∀ x : Station, b.toNat ≠ x.val := by
    rintro rfl x h
    exact absurd (h ▸ x.isLt) (by decide)
  have member_all : ∀ x : Station, s.mship.table[x].state = .member →
      ¬ (!((some x).all (isMember s.mship.table))) = true := fun x member => by
    simp [-Fin.getElem_fin, isMember, member]
  dsimp only
  refine ⟨fun bad => ?_, fun good other => ?_, fun good member unaimed => ?_, fun good member aimed none => ?_,
    fun k good member all issuable => ?_, fun k x good member aim target issuable => ?_⟩
  · rw [exec_signal hand, doSignal, self, signalArg_bad bad]
    rfl
  · obtain ⟨-, arg⟩ | ⟨x, -, arg⟩ := read good
    · rw [exec_eq _ arg, if_pos other]
      rfl
    · rw [exec_eq _ arg, if_pos other]
      rfl
  · obtain ⟨all, arg⟩ | ⟨x, aim, arg⟩ := read good
    · exact absurd (fun x h => absurd h (all_not_one all x)) unaimed
    · have outside : s.mship.table[x].state ≠ .member := fun h => unaimed fun y hy => by
        obtain rfl : x = y := Fin.ext (aim.symm.trans hy)
        exact h
      rw [exec_eq _ arg, if_neg (not_not.2 member), if_pos (by simpa [-Fin.getElem_fin, isMember] using outside)]
      rfl
  · obtain ⟨-, arg⟩ | ⟨x, aim, arg⟩ := read good
    · rw [exec_eq _ arg, if_neg (not_not.2 member), if_neg (by simp), withTicket_none _ none]
    · rw [exec_eq _ arg, if_neg (not_not.2 member), if_neg (member_all x (aimed x aim)), withTicket_none _ none]
  · obtain ⟨-, arg⟩ | ⟨x, aim, arg⟩ := read good
    · rw [exec_eq _ arg, if_neg (not_not.2 member), if_neg (by simp), withTicket_issuable _ issuable]
      rfl
    · exact absurd aim (all_not_one all x)
  · obtain ⟨all, -⟩ | ⟨y, aim', arg⟩ := read good
    · exact absurd aim (all_not_one all x)
    · obtain rfl : x = y := Fin.ext (aim.symm.trans aim')
      rw [exec_eq _ arg, if_neg (not_not.2 member), if_neg (member_all x target), withTicket_issuable _ issuable]
      rfl

/-- Settles O30: the bundle's loss, the cancellations and the acceptance, block by block. -/
theorem leaveAccepted : Obligations.LeaveAccepted := by
  intro s hand
  refine ⟨fun other => ?_, fun member none => ?_, fun k member issuable law => ?_⟩
  · rw [exec_leave hand, doLeave, if_pos other]
    rfl
  · rw [exec_leave hand, doLeave, if_neg (not_not.2 member), withTicket_none _ none]
  · obtain ⟨b, slot, seq, e, order, notices, queued⟩ := leaveBundle_changes s
    have cancelled := completeAll_keeps (ticketsIn (leaveBundle s).port (· == .queued)) .cancelled (leaveBundle s)
    obtain ⟨p, hp⟩ := completeAll_port (ticketsIn (leaveBundle s).port (· == .queued)) .cancelled (leaveBundle s)
    have live : ∀ (j : TicketNo) u, s.port.tickets[j] = some u → u.state = .queued →
        p.tickets[j] = some { u with state := .done } ∧ .completion j u.kind .cancelled ∈ p.notices := fun j u used its => by
      have named : j ∈ (leaveBundle s).port.order := by
        rw [order, law.2.2.1 j, used]
        nofun
      have used' := queued j u used its
      have := completeAll_ticket_live .cancelled (mem_ticketsIn (q := (· == .queued)) named used' (beq_iff_eq.2 its)) used'
        (by rw [its]; nofun)
      rw [hp] at this
      exact this
    rw [hp] at cancelled
    obtain ⟨order', -, -, notices', -⟩ := cancelled
    refine ⟨acceptLeave k s, ?_, ?_⟩
    · rw [exec_leave hand, doLeave, if_neg (not_not.2 member), withTicket_issuable _ issuable]
    · have ticket : ∀ j : TicketNo, (acceptLeave k s).port.tickets[j] =
          if j = k then some { kind := .leave, state := .queued, arg := .none, link := none }
          else p.tickets[j] := fun j => by
        unfold acceptLeave
        dsimp only
        rw [hp]
        exact getElem_set_fin _ _ _ _
      have other : ∀ (j : TicketNo) u, s.port.tickets[j] = some u → j ≠ k := by
        rintro j u used rfl
        rw [issuable.1] at used
        cases used
      refine ⟨?_, rfl, rfl, rfl, by rw [ticket, if_pos rfl], fun j u used its => ?_, ?_, ?_, ?_⟩
      · unfold acceptLeave
        dsimp only
        rw [hp, e]
        rfl
      · obtain ⟨done, notice⟩ := live j u used its
        refine ⟨by rw [ticket, if_neg (other j u used)]; exact done, ?_⟩
        unfold acceptLeave
        dsimp only
        rw [hp]
        exact notice
      · unfold acceptLeave
        dsimp only
        rw [hp]
        exact congrArg (· ++ [k]) (order'.trans order)
      · unfold acceptLeave
        dsimp only
        rw [hp]
        exact notices.trans notices'
      · unfold acceptLeave
        dsimp only
        rw [hp]
        generalize (leaveBundle s).port = q at e
        rw [e]
        simp [accept, respond, setPhase, enqueue, issue, stopSilence]

end Sys2Proof
end

section
/-! The wire formats read back: each field, each record, each payload, and so each frame. -/

namespace Sys2Proof.Machine

/-! ### Fields (R193, R194) -/

theorem parseStation_stationByte (x : Station) : parseStation (stationByte x) = some x := by
  revert x
  decide

theorem stationByte_ne (x : Station) : stationByte x ≠ 0xFF := by
  revert x
  decide

theorem parseOptStation_stationByte (x : Option Station) : parseOptStation (optStationByte x) = some x := by
  cases x with
  | none => rfl
  | some y => exact (if_neg (stationByte_ne y)).trans (congrArg (Option.map some) (parseStation_stationByte y))

theorem parseCell_ofNat (c : CellIx) : parseCell (BitVec.ofNat 8 c.val) = c :=
  Fin.ext (Nat.mod_eq_of_lt c.isLt)

theorem toNat_ofNat_byte {n : Nat} (h : n < 256) : (BitVec.ofNat 8 n).toNat = n := Nat.mod_eq_of_lt h

theorem versionOfBytes_versionBytes (v : Version) :
    versionOfBytes (v.extractLsb' 24 8) (v.extractLsb' 16 8) (v.extractLsb' 8 8) (v.extractLsb' 0 8) = v := by
  unfold versionOfBytes
  ext i hi
  simp only [BitVec.getElem_append]
  grind

theorem word_wordBytes (w : BitVec 16) : (w.extractLsb' 8 8 ++ w.extractLsb' 0 8 : BitVec 16) = w := by
  ext i hi
  simp only [BitVec.getElem_append]
  grind

theorem toVector_toList {n : Nat} {α : Type} (v : Vector α n) : toVector n v.toList = some v := by
  obtain ⟨a, rfl⟩ := v
  exact dif_pos rfl

theorem parseVersionData_bytes (v : Version) (d : CellData) (rest : List Byte) :
    parseVersionData (versionBytes v ++ (d.toList ++ rest)) = some (v, d, rest) := by
  have front : (d.toList ++ rest).take 32 = d.toList := List.take_left' Vector.length_toList
  have back : (d.toList ++ rest).drop 32 = rest := List.drop_left' Vector.length_toList
  rw [versionBytes, List.cons_append, List.cons_append, List.cons_append, List.cons_append, List.nil_append,
    parseVersionData,
    front, back, toVector_toList, versionOfBytes_versionBytes]
  rfl

theorem length_versionData (v : Version) (d : CellData) : (versionBytes v ++ d.toList).length = 36 := by
  simp [versionBytes]

/-! ### Records and entries (R194) -/

theorem parseWriteRecords_bytes (rs : List WriteRecord) :
    parseWriteRecords rs.length (rs.flatMap writeRecordBytes) = some rs := by
  induction rs with
  | nil => rfl
  | cons r rs ih =>
    rw [List.flatMap_cons, writeRecordBytes, List.cons_append, List.cons_append, List.append_assoc, List.length_cons,
      parseWriteRecords, parseVersionData_bytes]
    dsimp only
    rw [ih, parseCell_ofNat]
    rfl

theorem parseSnapRecord_bytes (r : SnapRecord) (rest : List Byte) :
    parseSnapRecord (snapRecordBytes r ++ rest) = some (r, rest) := by
  cases r with
  | present v d =>
    rw [snapRecordBytes, List.cons_append, List.cons_append, List.append_assoc, parseSnapRecord, parseVersionData_bytes]
    rfl
  | missing =>
    rw [snapRecordBytes, List.cons_append, List.cons_append, List.append_assoc, parseSnapRecord, parseVersionData_bytes]
    rfl

theorem parseSnapRecords_bytes (rs : List SnapRecord) :
    parseSnapRecords rs.length (rs.flatMap snapRecordBytes) = some rs := by
  induction rs with
  | nil => rfl
  | cons r rs ih =>
    rw [List.flatMap_cons, List.length_cons, parseSnapRecords, parseSnapRecord_bytes]
    dsimp only
    rw [ih]
    rfl

theorem length_snapRecordBytes (r : SnapRecord) : (snapRecordBytes r).length = 37 := by
  cases r <;> simp [snapRecordBytes, versionBytes]

theorem parseStations_bytes (xs : List Station) : parseStations (xs.map stationByte) = some xs := by
  induction xs with
  | nil => rfl
  | cons x xs ih => rw [List.map_cons, parseStations, parseStation_stationByte, ih]

theorem stateByte_fields : ∀ (e : EntryState), ∀ p < 16,
    parseEntryState ((entryStateCode e ++ 0#2 ++ BitVec.ofNat 4 p).extractLsb' 6 2) = some e
      ∧ (entryStateCode e ++ 0#2 ++ BitVec.ofNat 4 p).extractLsb' 4 2 = 0#2
      ∧ ((entryStateCode e ++ 0#2 ++ BitVec.ofNat 4 p).extractLsb' 0 4).toNat = p := by
  intro e
  cases e <;> decide

/-- A join place of 0 to 14 or none is coded in four bits, 15 for none. -/
theorem parseMemberEntry_bytes {e : MemberEntry} (range : e.joinPlace.all (· ≤ 14)) :
    parseMemberEntry (entryStateCode e.state ++ 0#2 ++ BitVec.ofNat 4 (e.joinPlace.getD 15)) e.lastSeq
      (optStationByte e.sponsor) = some e := by
  obtain ⟨state, seq, sponsor, place⟩ := e
  cases place with
  | none =>
    obtain ⟨code, zero, its⟩ := stateByte_fields state 15 (by decide)
    simp only [parseMemberEntry, parseOptStation_stationByte, Option.getD_none]
    rw [code]
    dsimp only
    rw [zero, if_pos rfl, its]
    rfl
  | some p =>
    have small : p ≤ 14 := of_decide_eq_true range
    obtain ⟨code, zero, its⟩ := stateByte_fields state p (by omega)
    simp only [parseMemberEntry, parseOptStation_stationByte, Option.getD_some]
    rw [code]
    dsimp only
    rw [zero, if_pos rfl, its, if_neg (by omega)]

theorem parseMemberEntries_bytes {es : List MemberEntry} (range : ∀ e ∈ es, e.joinPlace.all (· ≤ 14)) (rest : List Byte) :
    parseMemberEntries es.length (es.flatMap memberEntryBytes ++ rest) = some (es, rest) := by
  induction es with
  | nil => rfl
  | cons e es ih =>
    obtain ⟨this, others⟩ := List.forall_mem_cons.1 range
    rw [List.flatMap_cons, List.append_assoc, memberEntryBytes, List.length_cons, List.cons_append, List.cons_append,
      List.cons_append, List.nil_append, parseMemberEntries, parseMemberEntry_bytes this, ih others]

theorem parseRegionEntry_bytes {e : RegionEntry} (range : e.waiters.length ≤ 15) (rest : List Byte) :
    parseRegionEntry (regionEntryBytes e ++ rest) = some (e, rest) := by
  have count : (BitVec.ofNat 8 e.waiters.length).toNat = e.waiters.length := toNat_ofNat_byte (by omega)
  have front : (e.waiters.map stationByte ++ rest).take e.waiters.length = e.waiters.map stationByte :=
    List.take_left' (List.length_map _)
  have back : (e.waiters.map stationByte ++ rest).drop e.waiters.length = rest := List.drop_left' (List.length_map _)
  rw [regionEntryBytes, List.cons_append, List.cons_append, parseRegionEntry, count, front, back,
    parseOptStation_stationByte,
    parseStations_bytes, if_pos ⟨range, by simp⟩]

theorem parseRegionEntries_bytes {es : List RegionEntry} (range : ∀ e ∈ es, e.waiters.length ≤ 15) :
    parseRegionEntries es.length (es.flatMap regionEntryBytes) = some es := by
  induction es with
  | nil => rfl
  | cons e es ih =>
    obtain ⟨this, others⟩ := List.forall_mem_cons.1 range
    rw [List.flatMap_cons, List.length_cons, parseRegionEntries, parseRegionEntry_bytes this]
    dsimp only
    rw [ih others]
    rfl

theorem imagesInRange_iff {im : Images} : imagesInRange im = true ↔
    (∀ e ∈ im.members.toList, e.joinPlace.all (· ≤ 14)) ∧ ∀ e ∈ im.locks.toList, e.waiters.length ≤ 15 := by
  simp only [imagesInRange, Bool.and_eq_true, List.all_eq_true, decide_eq_true_eq]

theorem parseImages_bytes {im : Images} (range : imagesInRange im = true) :
    parseImages (payloadBytes (.snapState t im)) = some im := by
  obtain ⟨members, locks⟩ := imagesInRange_iff.1 range
  have ms := parseMemberEntries_bytes members (im.locks.toList.flatMap regionEntryBytes)
  have rs := parseRegionEntries_bytes locks
  rw [Vector.length_toList] at ms rs
  rw [payloadBytes, parseImages, ms]
  dsimp only
  rw [rs]
  dsimp only
  rw [toVector_toList im.members, toVector_toList im.locks]

/-! ### Bodies (12.1, R194) -/

theorem length_flatMap_const {α β : Type} {f : α → List β} {k : Nat} {l : List α} (h : ∀ a ∈ l, (f a).length = k) :
    (l.flatMap f).length = l.length * k := by
  rw [List.length_flatMap, List.map_congr_left h, List.map_const', List.sum_replicate_nat]

theorem length_flatMap_le {α β : Type} {f : α → List β} {k : Nat} {l : List α} (h : ∀ a ∈ l, (f a).length ≤ k) :
    (l.flatMap f).length ≤ l.length * k := by
  rw [List.length_flatMap]
  induction l with
  | nil => simp
  | cons a l ih =>
    obtain ⟨this, others⟩ := List.forall_mem_cons.1 h
    have := ih others
    simp only [List.map_cons, List.sum_cons, List.length_cons, Nat.succ_mul]
    omega

/-- A frame in range has a payload of 320 bytes at most. -/
theorem length_payloadBytes_le {f : Frame} (range : frameInRange f = true) : (payloadBytes f.body).length ≤ 320 := by
  obtain ⟨head, body⟩ := f
  cases body with
  | write w =>
    have records : w.records.length ≤ 8 := by
      simp only [frameInRange, writeOk, Bool.and_eq_true, decide_eq_true_eq] at range
      exact range.1.1.1.2
    have each : ∀ r ∈ w.records, (writeRecordBytes r).length = 37 := fun r _ => by simp [writeRecordBytes, versionBytes]
    simp only [payloadBytes, List.length_cons, length_flatMap_const each]
    omega
  | snapState t im =>
    obtain ⟨-, locks⟩ := imagesInRange_iff.1 (Bool.and_eq_true_iff.1 range).2
    have each : ∀ e ∈ im.members.toList, (memberEntryBytes e).length = 3 := fun e _ => rfl
    have region : ∀ e ∈ im.locks.toList, (regionEntryBytes e).length ≤ 17 := fun e he => by
      have := locks e he
      simp only [regionEntryBytes, List.length_cons, List.length_map]
      omega
    have := length_flatMap_le region
    simp only [payloadBytes, List.length_append, length_flatMap_const each, Vector.length_toList] at this ⊢
    omega
  | snapCells t g rs =>
    simp only [payloadBytes, List.length_cons, length_flatMap_const fun r _ => length_snapRecordBytes r,
      Vector.length_toList]
    omega
  | mendReply t c a => cases a <;> simp [payloadBytes, versionBytes]
  | signal t bytes =>
    simp only [frameInRange, Bool.and_eq_true, decide_eq_true_eq] at range
    have := range.2
    simp only [payloadBytes, List.length_cons]
    omega
  | presence | leave | join r | drop t r | claim r | yield r | mend t c => simp [payloadBytes]

theorem parseMendAnswer_data (v : Version) (d : CellData) :
    parseMendAnswer 0x01 (versionBytes v ++ d.toList) = some (.data v d) := by
  have read := parseVersionData_bytes v d []
  rw [List.append_nil] at read
  rw [parseMendAnswer, read]
  rfl

theorem parseMendAnswer_noCopy : parseMendAnswer 0x00 (versionBytes 0 ++ zeroData.toList) = some .noCopy := by
  have read := parseVersionData_bytes 0 zeroData []
  rw [List.append_nil] at read
  rw [parseMendAnswer, read]
  rfl

/-- The body of a frame in range is read back from its header fields and payload. -/
theorem parseBody_bytes {f : Frame} (range : frameInRange f = true) :
    parseBody (kindCode f.body) (targetByte f.body) (moreFlag f.body) (payloadBytes f.body) = some f.body := by
  obtain ⟨head, body⟩ := f
  have targeted : ∀ {kind : Byte} {t : Station} {payload : List Byte}, untargetedKind kind = false → kind ≠ 0x61 →
      parseBody kind (stationByte t) false payload = parseTargeted kind t payload := fun {kind t payload} h n => by
    rw [parseBody, h, parseStation_stationByte, if_neg n]
    rfl
  cases body with
  | presence => rfl
  | leave => rfl
  | join r => cases r <;> rfl
  | claim r => exact congrArg (Option.map Body.claim) (parseStation_stationByte r)
  | yield r => exact congrArg (Option.map Body.yield) (parseStation_stationByte r)
  | write w =>
    simp only [frameInRange, writeOk, Bool.and_eq_true, decide_eq_true_eq] at range
    obtain ⟨⟨⟨⟨⟨⟨index, count⟩, -⟩, records⟩, -⟩, -⟩, -⟩ := range
    have records : w.records.length ≤ 8 := records
    refine (if_pos rfl).trans ((if_pos rfl).trans ((if_pos rfl).trans ?_))
    dsimp only [payloadBytes]
    rw [toNat_ofNat_byte (by omega), toNat_ofNat_byte (by omega), toNat_ofNat_byte (by omega), parseWriteRecords_bytes]
    rfl
  | drop t r =>
    refine (targeted (kind := 0x14) rfl (by decide)).trans ?_
    cases r <;> rfl
  | snapState t im =>
    refine (targeted (kind := 0x41) rfl (by decide)).trans ?_
    exact congrArg (Option.map (Body.snapState t)) (parseImages_bytes (t := t) (Bool.and_eq_true_iff.1 range).2)
  | snapCells t g rs =>
    refine (targeted (kind := 0x42) rfl (by decide)).trans ?_
    have group : (BitVec.ofNat 8 g.val).toNat = g.val := toNat_ofNat_byte (by omega)
    have read := parseSnapRecords_bytes rs.toList
    rw [Vector.length_toList] at read
    refine (if_neg (by decide)).trans ((if_neg (by decide)).trans ((if_pos rfl).trans ?_))
    dsimp only [payloadBytes]
    simp only [group, g.isLt, dite_true, read, toVector_toList]
    rfl
  | mend t c =>
    refine (targeted (kind := 0x51) rfl (by decide)).trans ?_
    exact congrArg (fun c => some (Body.mend t c)) (parseCell_ofNat c)
  | mendReply t c a =>
    refine (targeted (kind := 0x52) rfl (by decide)).trans ?_
    cases a with
    | data v d =>
      exact (congrArg (Option.map _) (parseMendAnswer_data v d)).trans (congrArg (fun c => some (Body.mendReply t c _))
        (parseCell_ofNat c))
    | noCopy =>
      exact (congrArg (Option.map _) parseMendAnswer_noCopy).trans (congrArg (fun c => some (Body.mendReply t c _))
        (parseCell_ofNat c))
  | signal t bytes =>
    simp only [frameInRange, Bool.and_eq_true, decide_eq_true_eq] at range
    obtain ⟨-, short⟩ := range
    show parseBody 0x61 (optStationByte t) false _ = _
    refine (if_neg (by decide)).trans ((if_neg (by decide)).trans ((if_pos rfl).trans ?_))
    rw [parseOptStation_stationByte]
    exact if_pos (toNat_ofNat_byte (by omega))

/-! ### Whole frames (12.1) -/

theorem flagByte_fields : ∀ (x : Station) (r m : Bool),
    senderOf (BitVec.ofNat 4 x.val ++ bit r ++ bit m ++ 0#2) = x
      ∧ (BitVec.ofNat 4 x.val ++ bit r ++ bit m ++ 0#2).getLsbD 3 = r
      ∧ (BitVec.ofNat 4 x.val ++ bit r ++ bit m ++ 0#2).getLsbD 2 = m
      ∧ (BitVec.ofNat 4 x.val ++ bit r ++ bit m ++ 0#2).extractLsb' 0 2 = 0#2 := by
  decide

/-- The bytes of a frame that passes a station's field checks are that frame to its receive checks. -/
theorem classify_frameBytes {n : Station} {f : Frame} (ok : frameOkAt n f = true) :
    classify n true (onLine (frameBytes f)) = .good f := by
  have range : frameInRange f = true := (Bool.and_eq_true_iff.1 ok).1
  have short := length_payloadBytes_le range
  obtain ⟨sender, repeated, more, clear⟩ := flagByte_fields f.head.sender f.head.repeated (moreFlag f.body)
  have len : ((BitVec.ofNat 16 (payloadBytes f.body).length).extractLsb' 8 8
      ++ (BitVec.ofNat 16 (payloadBytes f.body).length).extractLsb' 0 8 : BitVec 16).toNat
        = (payloadBytes f.body).length := by
    rw [word_wordBytes]
    exact Nat.mod_eq_of_lt (by omega)
  have front : (payloadBytes f.body ++ wordBytes (payloadCheck (payloadBytes f.body))).take (payloadBytes f.body).length
      = payloadBytes f.body := List.take_left' rfl
  have back : (payloadBytes f.body ++ wordBytes (payloadCheck (payloadBytes f.body))).drop (payloadBytes f.body).length
      = wordBytes (payloadCheck (payloadBytes f.body)) := List.drop_left' rfl
  have passes : ¬ (false = true ∨ (payloadBytes f.body).length > Config.maxPayload
      ∨ (payloadBytes f.body ++ wordBytes (payloadCheck (payloadBytes f.body))).length ≠ (payloadBytes f.body).length + 2
      ∨ wordBytes (payloadCheck (payloadBytes f.body)) ≠ wordBytes (payloadCheck (payloadBytes f.body))) := by
    rintro (h | h | h | h)
    · cases h
    · exact absurd short (Nat.not_le.2 h)
    · exact h List.length_append
    · exact h rfl
  rw [classify, assembled_onLine, stoppedUnframed_onLine, frameBytes, headerBytes, wordBytes]
  refine (if_pos ⟨rfl, rfl⟩).trans ?_
  rw [judgeKnown, len, front, back, if_neg passes, sender, repeated, more, clear, if_neg (not_not.2 rfl),
    parseBody_bytes range]
  exact if_pos ok

/-- What passes every check byte by byte ends its carrier as the frame it is, at a station not driving. -/
theorem heardBytesEnd_frameBytes {f : Frame} {s : State} (heard : s.bus.state ≠ .sending)
    (ok : frameOkAt s.straps.number f = true) : heardBytesEnd (onLine (frameBytes f)) s = carrierEnd f s := by
  have same : ∀ mark, classify (self s) mark (onLine (frameBytes f)) = classOfFrame (self s) mark f := fun mark => by
    cases mark with
    | true => exact (classify_frameBytes ok).trans (if_pos ok).symm
    | false => rw [classify, assembled_onLine]; rfl
  unfold heardBytesEnd carrierEnd
  cases state : s.bus.state with
  | idle => exact congrArg (fun c => heardEnd _ _ c s) (same true)
  | receiving => exact congrArg (fun c => heardEnd _ _ c s) (same _)
  | sending => exact absurd state heard
  | ackWindow => rfl

end Sys2Proof.Machine

namespace Sys2Proof

open Sys2Proof.Machine Sys2Proof.Safety

/-- Settles O8: the fields, the records and the two checks read back one by one. -/
theorem wireRoundTrip : Obligations.WireRoundTrip := fun _ _ ok => classify_frameBytes ok

/-- Settles O9: the check point before the frame leaves the bus and the straps, and the bytes are the frame. -/
theorem heardBytesActAsTheirFrame : Obligations.HeardBytesActAsTheirFrame := by
  intro s f heard ok
  have side : busSide (carryOut s) = busSide s := busSide_carryOut s
  have bus : (carryOut s).bus = s.bus := congrArg (·.2.1) side
  have straps : (carryOut s).straps = s.straps := congrArg (·.1) side
  rw [exec_frameCommand]
  show running (fun s => heardBytesEnd (onLine (frameBytes f)) (carryOut s)) s
    = running (fun s => carrierEnd f (carryOut s)) s
  simp only [running, heardBytesEnd_frameBytes (bus ▸ heard) (straps ▸ ok)]

end Sys2Proof
end

section
/-! Good frames of peers: the path from the command to the Apply Unit, and the frames whose effect is one table entry, one
queue or nothing. -/

namespace Sys2Proof.Machine

open Sys2Proof.Safety

/-! ### The path of a frame heard -/

/-- The state a heard frame's effect acts on, where it is applied: what every applied frame leaves, the bus still in its
carrier. -/
def reached (f : Frame) (s : State) : State := { taken f s with bus := (hearing f s).bus }

theorem enterAckWindow_heard {f : Frame} {s t : State} (b : Bool) (bus : t.bus = (hearing f s).bus) :
    enterAckWindow b .heard t = t.withBus (busAfter f b s.bus) := by
  have its : (enterAckWindow b .heard t).bus = (enterAckWindow b .heard (hearing f s)).bus := by
    unfold enterAckWindow
    rw [bus]
    rfl
  rw [enterAckWindow_hearing] at its
  rw [← its]
  rfl

/-- A good frame at a table holder is handled by the rules of a table holder, and the ack window follows. -/
theorem exec_atHolder {s : State} {f : Frame} (h : Hears s f) (holder : isHolder s.mship.state = true) :
    exec (frameCommand f) s = .next (enterAckWindow (handleAtHolder f (heardState f s)).2 .heard
      (handleAtHolder f (heardState f s)).1) := by
  rw [exec_heard h]
  simp only [meetListening_hearing f (holder_configured holder)]
  rw [handlePeer_holder (show isHolder (heardState f s).mship.state = true from holder)]

/-- What a table holder makes of a frame, its bus untouched, and the ack window. -/
theorem exec_handled {s t : State} {f : Frame} {b : Bool} (h : Hears s f) (holder : isHolder s.mship.state = true)
    (handled : handleAtHolder f (heardState f s) = (t, b)) (bus : t.bus = (hearing f s).bus) :
    exec (frameCommand f) s = .next (t.withBus (busAfter f b s.bus)) := by
  rw [exec_atHolder h holder, handled, enterAckWindow_heard b bus]

/-- An applied frame of a peer whose effect leaves the station a table holder is acked, beside the effect. -/
theorem exec_effect {s t : State} {f : Frame} (h : Applies s f)
    (made : effect f none (lockEffect f (reached f s)) = some t) (bus : t.bus = (hearing f s).bus)
    (holder : isHolder t.mship.state = true) :
    exec (frameCommand f) s = .next (t.withBus (busAfter f true s.bus)) := by
  rw [exec_applies h, show ({ taken f s with bus := (hearing f s).bus } : State) = reached f s from rfl, made]
  dsimp only
  rw [holder, enterAckWindow_heard true bus]

/-! ### The entries of the stations once a frame is recorded -/

theorem recorded_entry (x y : Station) (q : Seq) (t : Vector MemberEntry 16) :
    (t.set x.val { t[x] with lastSeq := q })[y].state = t[y].state := by
  rw [getElem_set_fin]
  split
  · rename_i e
    rw [e]
  · rfl

theorem reached_state (f : Frame) (s : State) (y : Station) :
    (reached f s).mship.table[y].state = s.mship.table[y].state := recorded_entry _ _ _ _

theorem isMember_reached (f : Frame) (s : State) (y : Station) :
    isMember (reached f s).mship.table y = isMember s.mship.table y :=
      congrArg (· == EntryState.member) (reached_state f s y)

theorem isMember_not {t : Vector MemberEntry 16} {x : Station} (h : t[x].state ≠ .member) : isMember t x = false :=
  beq_eq_false_iff_ne.2 h

end Sys2Proof.Machine

namespace Sys2Proof

open Sys2Proof.Machine Sys2Proof.Safety

/-- Settles O36: a PRESENCE has no effect of its own. -/
theorem presenceRecordsSender : Obligations.PresenceRecordsSender :=
  fun _ _ applies => exec_effect applies rfl rfl applies.2.1.1

/-- Settles O37: the claim entry, case by case. -/
theorem claimTakesRegionOrWaits : Obligations.ClaimTakesRegionOrWaits := by
  intro s h r f applies e
  have holder : isHolder s.mship.state = true := applies.2.1.1
  have peer : h.sender ≠ s.straps.number := applies.2.1.2.1
  have member : s.mship.table[h.sender].state = .member →
      lockEffect f (reached f s) = (reached f s).withLocks (s.locks.set r.val (claimEntry h.sender e)) := fun its => by
    have its' : isMember (reached f s).mship.table h.sender = true :=
      (isMember_reached f s _).trans ((isMember_iff _ _).2 its)
    show applyClaim h.sender r (reached f s) = _
    rw [applyClaim, if_pos its']
    exact if_neg fun own => peer own.1
  have done : ∀ entry, s.mship.table[h.sender].state = .member → claimEntry h.sender e = entry →
      exec (frameCommand f) s = .next { taken f s with locks := s.locks.set r.val entry } := fun entry its its' => by
    refine exec_effect applies (t := (reached f s).withLocks (s.locks.set r.val entry)) ?_ rfl holder
    rw [member its, its']
    rfl
  refine ⟨fun its free => ?_, fun its held => ?_, fun its y held other waits => ?_, fun its => ?_⟩
  · refine done { e with holder := some h.sender } its ?_
    rw [claimEntry, free]
  · have same : claimEntry h.sender e = e := by
      unfold claimEntry
      obtain held | ⟨some, waits⟩ := held
      · rw [held]
        exact if_pos (.inl rfl)
      · split
        · exact absurd ‹_› some
        · exact if_pos (.inr waits)
    refine (done e its same).trans ?_
    have : s.locks.set r.val e = s.locks := Vector.set_getElem_self r.isLt
    rw [this]
    rfl
  · refine done { e with waiters := e.waiters ++ [h.sender] } its ?_
    rw [claimEntry, held]
    refine if_neg ?_
    rintro (rfl | waiting)
    · exact other rfl
    · exact waits waiting
  · refine exec_effect applies (t := reached f s) ?_ rfl holder
    have its' : ¬ isMember (reached f s).mship.table h.sender = true := by
      rw [isMember_reached, isMember_not (by rw [its]; nofun)]
      nofun
    show some (applyClaim h.sender r (reached f s)) = _
    rw [applyClaim, if_neg its']

end Sys2Proof
end

section
/-! Duplicates, foreign frames, fragments staged, requests to this station and signals. -/

namespace Sys2Proof.Machine

open Sys2Proof.Safety

/-! ### Duplicates and foreign frames (R25, R31) -/

theorem isForeign_of_absent {f : Frame} {s : State} (h : f.head.sender = s.straps.number
      ∨ (s.mship.table[f.head.sender].state = .absent ∧ ∀ b, f.body ≠ .join b)) : isForeign f s = true := by
  rw [isForeign, Bool.or_eq_true, Bool.and_eq_true]
  refine h.imp (fun own => beq_iff_eq.2 own) fun ⟨absent, other⟩ => ⟨?_, ?_⟩
  · cases body : f.body with
    | join b => exact absurd body (other b)
    | _ => rfl
  · rw [isTableSender, absent]
    rfl

theorem isForeign_of_sender {f : Frame} {s : State} (peer : f.head.sender ≠ s.straps.number)
    (known : s.mship.table[f.head.sender].state ≠ .absent) : isForeign f s = false := by
  have sender : isTableSender s.mship.table f.head.sender = true := bne_iff_ne.2 known
  rw [isForeign, sender, self, beq_eq_false_iff_ne.2 peer, Bool.not_true, Bool.and_false, Bool.or_false]

theorem isForeign_of_join {f : Frame} {s : State} {b : Bool} (peer : f.head.sender ≠ s.straps.number)
    (join : f.body = .join b) :
    isForeign f s = false := by
  rw [isForeign, join, self, beq_eq_false_iff_ne.2 peer]
  rfl

theorem checkSeq_duplicate {f : Frame} {s : State} (other : ∀ b, f.body ≠ .join b)
    (same : f.head.seq = s.mship.table[f.head.sender].lastSeq) : checkSeq f s = .duplicate := by
  have next : ∀ q : Seq, q ≠ q + 1 := by decide
  unfold checkSeq
  split
  · exact absurd ‹_› (other _)
  · rw [if_neg (by rw [same]; exact next _), if_pos same]

theorem checkSeq_other {f : Frame} {s : State} (other : ∀ b, f.body ≠ .join b)
    (ahead : f.head.seq ≠ s.mship.table[f.head.sender].lastSeq + 1)
    (last : f.head.seq ≠ s.mship.table[f.head.sender].lastSeq) :
    checkSeq f s = .outOfStep := by
  unfold checkSeq
  split
  · exact absurd ‹_› (other _)
  · rw [if_neg ahead, if_neg last]

theorem handleAtHolder_foreign {f : Frame} {s : State} (foreign : isForeign f s = true) :
    handleAtHolder f s = (reportForeign f.head.sender s, false) := if_pos foreign

theorem handleAtHolder_duplicate {f : Frame} {s : State} (group : isForeign f s = false) (free : resolveDoubt f s = .goOn)
    (last : checkSeq f (setDoubt .clear s) = .duplicate) :
    handleAtHolder f s = (signOfLife f.head.sender (setDoubt .clear s), true) := by
  rw [handleAtHolder, group, free]
  dsimp only
  rw [last]
  rfl

theorem handleAtHolder_applied {f : Frame} {s t : State} (group : isForeign f s = false) (free : resolveDoubt f s = .goOn)
    (next : checkSeq f (setDoubt .clear s) = .applied)
    (made : takeFrame f none (signOfLife f.head.sender (setDoubt .clear s)) = some t) :
    handleAtHolder f s = (t, isHolder t.mship.state) := by
  rw [handleAtHolder, group, free]
  dsimp only
  rw [next]
  dsimp only
  rw [made]
  rfl

/-- A foreign frame's report, where there is none to make. -/
theorem reportForeign_silent {x : Station} {s : State}
    (h : s.mship.state = .leaving ∨ flag s.apply.foreign x = true) : reportForeign x s = s := by
  refine if_neg ?_
  rintro ⟨inGroup, fresh⟩
  obtain leaving | known := h
  · rw [leaving] at inGroup
    obtain h | h := inGroup <;> cases h
  · rw [known] at fresh
    cases fresh

theorem reportForeign_new {x : Station} {s : State} (inGroup : s.mship.state = .filling ∨ s.mship.state = .member)
    (fresh : flag s.apply.foreign x = false) :
    reportForeign x s = postNotice (.foreign x) (s.withApply { s.apply with foreign := flagSet s.apply.foreign x }) :=
  if_pos ⟨inGroup, fresh⟩

/-- A foreign frame's report, handled and passed by. -/
theorem exec_foreign {s t : State} {f : Frame} (h : Hears s f) (holder : isHolder s.mship.state = true)
    (foreign : f.head.sender = s.straps.number ∨ (s.mship.table[f.head.sender].state = .absent ∧ ∀ b, f.body ≠ .join b))
    (reported : reportForeign f.head.sender (heardState f s) = t) (bus : t.bus = (hearing f s).bus) :
    exec (frameCommand f) s = .next (t.withBus (busAfter f false s.bus)) :=
  exec_handled h holder (reported ▸ handleAtHolder_foreign (isForeign_of_absent (s := heardState f s) foreign)) bus

theorem roomFree_true {p : HostPort} (h : p.notices.length + reserved p < 32) : roomFree p = true := decide_eq_true h

theorem roomFree_false {p : HostPort} (h : 32 ≤ p.notices.length + reserved p) : roomFree p = false :=
  decide_eq_false (Nat.not_lt.2 h)

/-! ### Fragments (R65) -/

/-- A peer's first fragment, nothing of its sender standing in the staging: what the staging takes. -/
theorem staging_fresh {f : Frame} {s : State} (fresh : ∀ st, s.apply.staging = some st → st.sender ≠ f.head.sender) :
    (reached f s).apply.staging = none := by
  show s.apply.staging.filter _ = none
  cases its : s.apply.staging with
  | none => rfl
  | some st => simp [Option.filter, fresh st its]

/-- A later fragment of a sender in the staging finds its staging. -/
theorem staging_kept {f : Frame} {s : State} {st : Staging} (its : s.apply.staging = some st)
    (sender : st.sender = f.head.sender)
    (keeps : keepsStaging f.body = true) : (reached f s).apply.staging = some st := by
  show s.apply.staging.filter _ = some st
  rw [its]
  simp [Option.filter, sender, keeps]

theorem lockEffect_write {h : FrameHead} {w : WriteBody} (s : State) :
    lockEffect { head := h, body := .write w } s = s := rfl

end Sys2Proof.Machine

namespace Sys2Proof

open Sys2Proof.Machine Sys2Proof.Safety

/-- Settles O44: no doubt to resolve, no record, no effect. -/
theorem duplicateIsAckedOnly : Obligations.DuplicateIsAckedOnly := by
  intro s f hears ⟨holder, peer, known, clear⟩ other same
  refine exec_handled hears holder (t := signOfLife f.head.sender (setDoubt .clear (heardState f s))) (b := true) ?_ rfl
  exact handleAtHolder_duplicate (isForeign_of_sender (s := heardState f s) peer known)
    (resolveDoubt_free (s := heardState f s) clear)
    (checkSeq_duplicate (s := setDoubt .clear (heardState f s)) other same)

/-- Settles O45: a stranger reported or not, and the states that apply nothing. -/
theorem frameNotOfGroupPassesBy : Obligations.FrameNotOfGroupPassesBy := by
  intro s f hears foreign inGroup
  have holder : inGroup → isHolder s.mship.state = true := by
    rintro (h | h) <;> rw [h] <;> rfl
  have deaf : s.mship.state = .outside ∨ s.mship.state = .joinSent →
      handlePeer f (heardState f s) = (heardState f s, false) := by
    rintro (h | h) <;> rw [handlePeer, show (heardState f s).mship.state = s.mship.state from rfl, h]
  refine ⟨fun stranger inside new room => ?_, fun stranger inside new full => ?_, fun stranger inside known => ?_,
    fun stranger leaving => ?_, fun out => ?_, fun unconfigured => ?_⟩
  · exact exec_foreign hears (holder inside) stranger ((reportForeign_new (s := heardState f s) inside new).trans
      (postNotice_room (roomFree_true (p := ((heardState f s).withApply _).port) room))) rfl
  · exact exec_foreign hears (holder inside) stranger ((reportForeign_new (s := heardState f s) inside new).trans
      (postNotice_full (roomFree_false (p := ((heardState f s).withApply _).port) full))) rfl
  · exact exec_foreign hears (holder inside) stranger (reportForeign_silent (s := heardState f s) (.inr known)) rfl
  · exact exec_foreign hears (by rw [leaving]; rfl) stranger (reportForeign_silent (s := heardState f s) (.inl leaving)) rfl
  · have past : s.mship.state ≠ .unconfigured := by
      obtain h | h := out <;> rw [h] <;> nofun
    rw [exec_heard hears]
    simp only [meetListening_hearing f past]
    rw [deaf out]
    exact congrArg Host.Outcome.next (enterAckWindow_heard (t := heardState f s) false rfl)
  · rw [exec_heard hears]
    have same : meetListening (setReference (some f.head.sender) (hearing f s))
      = setReference (some f.head.sender) (hearing f s) :=
      if_pos unconfigured
    have passed : handlePeer f (setReference (some f.head.sender) (hearing f s))
        = (setReference (some f.head.sender) (hearing f s), false) := by
      rw [handlePeer, show (setReference (some f.head.sender) (hearing f s)).mship.state = s.mship.state from rfl,
        unconfigured]
    simp only [same]
    rw [passed]
    exact congrArg Host.Outcome.next (enterAckWindow_heard (t := setReference (some f.head.sender) (hearing f s)) false rfl)

/-- Settles O46: the staging begun, and the staging grown. -/
theorem fragmentIsStaged : Obligations.FragmentIsStaged := by
  intro s h w f applies
  have holder : isHolder s.mship.state = true := applies.2.1.1
  refine ⟨fun fresh first more => ?_, fun st its sender expected count more => ?_⟩
  · refine exec_effect applies (t := setStaging
      (some { sender := h.sender, count := w.count, expected := 1, records := w.records }) (reached f s)) ?_ rfl holder
    show applyWrite h.sender w (reached f s) = _
    rw [applyWrite, staging_fresh (f := f) fresh]
    dsimp only
    rw [if_pos first]
    exact if_neg (by omega)
  · refine exec_effect applies (t := setStaging
      (some { st with expected := st.expected + 1, records := st.records ++ w.records }) (reached f s)) ?_ rfl holder
    show applyWrite h.sender w (reached f s) = _
    rw [applyWrite, staging_kept (f := f) its sender rfl]
    dsimp only
    rw [if_pos ⟨expected, count⟩]
    exact if_neg (by omega)

/-- Settles O49: the handling of AWAIT_STATE, the SNAPSTATE aimed here apart. -/
theorem snapStateBeginsFill : Obligations.SnapStateBeginsFill := by
  intro s awaiting
  have past : s.mship.state ≠ .unconfigured := by
    rw [awaiting]
    nofun
  have handled : ∀ {f : Frame} {t : State}, Hears s f → handleAwaiting f (heardState f s) = (t, true) →
      t.bus = (hearing f s).bus
        → exec (frameCommand f) s = .next (t.withBus (busAfter f true s.bus)) := fun {f t} hears its bus => by
    rw [exec_heard hears]
    simp only [meetListening_hearing f past]
    rw [handlePeer, show (heardState f s).mship.state = s.mship.state from rfl, awaiting]
    dsimp only
    rw [its, enterAckWindow_heard true bus]
  refine ⟨?_, fun f hears peer other => ?_⟩
  · intro h im f hears
    have peer : h.sender ≠ s.straps.number := by
      rintro own
      have range : frameInRange f = true := (Bool.and_eq_true_iff.1 hears.2.1).1
      have target : targetOk h.sender s.straps.number = true := (Bool.and_eq_true_iff.1 range).1
      rw [own, targetOk, bne_self_eq_false] at target
      cases target
    refine (handled hears (t := enterFilling h.sender h.seq im (heardState f s)) ?_ rfl).trans ?_
    · exact (if_neg peer).trans (if_pos rfl)
    · rfl
  · refine (handled hears (t := heardState f s) ?_ rfl).trans ?_
    · refine (if_neg peer).trans ?_
      split
      · rename_i t im body
        refine if_neg ?_
        rintro rfl
        exact other im body
      · rfl
    · rfl

/-- Settles O51: one entry of the MENDREPLY queue, or one notice. -/
theorem mendAndSignalReachTheirTarget : Obligations.MendAndSignalReachTheirTarget := by
  rintro s ⟨head, body⟩ applies e serves
  have holder : isHolder s.mship.state = true := applies.2.1.1
  have peer : head.sender ≠ s.straps.number := applies.2.1.2.1
  have member : ∀ f : Frame, isMember (reached f s).mship.table head.sender = true ↔ e.state = .member := fun f => by
    rw [isMember_reached, isMember_iff]
  refine ⟨?_, ?_⟩
  · rintro x c rfl
    refine ⟨?_, fun short => ?_⟩
    · rintro ⟨rfl, its, serving⟩ few
      refine (exec_effect applies (t := (reached _ s).withTx { (reached _ s).tx with
        replies := s.tx.replies ++ [{ requester := head.sender, cell := c }] }) ?_ rfl holder).trans rfl
      exact congrArg some (if_pos ⟨rfl, (member _).2 its, serving, few⟩)
    · refine (exec_effect applies (t := reached _ s) ?_ rfl holder).trans rfl
      refine congrArg some (if_neg ?_)
      rintro ⟨mine, its, serving, few⟩
      exact short.elim (fun no => no ⟨mine, (member _).1 its, serving⟩) fun full => absurd few (Nat.not_lt.2 full)
  · rintro x bytes rfl
    refine ⟨?_, ?_, fun no => ?_⟩
    · rintro ⟨mine, its, serving⟩ room
      have posted : applySignal head.sender x bytes (reached ⟨head, .signal x bytes⟩ s)
          = (reached ⟨head, .signal x bytes⟩ s).withPort
              { s.port with notices := s.port.notices ++ [.signalIn head.sender bytes] } := by
        rw [applySignal, if_pos ⟨peer, mine, (member _).2 its, serving⟩]
        exact postNotice_room (roomFree_true room)
      exact exec_effect applies (congrArg some posted) rfl holder
    · rintro ⟨mine, its, serving⟩ full
      have posted : applySignal head.sender x bytes (reached ⟨head, .signal x bytes⟩ s)
          = (reached ⟨head, .signal x bytes⟩ s).withPort { s.port with noticesDropped := true } := by
        rw [applySignal, if_pos ⟨peer, mine, (member _).2 its, serving⟩]
        exact postNotice_full (roomFree_false full)
      exact exec_effect applies (congrArg some posted) rfl holder
    · refine (exec_effect applies (t := reached _ s) ?_ rfl holder).trans rfl
      refine congrArg some (if_neg ?_)
      rintro ⟨-, mine, its, serving⟩
      exact no ⟨mine, (member _).1 its, serving⟩

end Sys2Proof
end

section
/-! YIELDs of peers, damaged frames and collisions. -/

namespace Sys2Proof.Machine

open Sys2Proof.Safety

/-! ### Grants (R41) -/

theorem filter_only {α : Type} {l : List α} (nodup : l.Nodup) {a : α} (mem : a ∈ l) {p : α → Bool}
    (only : ∀ b, p b = true ↔ b = a) : l.filter p = [a] := by
  refine List.perm_singleton.1 ((List.perm_ext_iff_of_nodup (nodup.filter _) (List.nodup_singleton a)).2 fun b => ?_)
  rw [List.mem_filter, only b, List.mem_singleton]
  exact ⟨fun h => h.2, fun h => ⟨h ▸ mem, h⟩⟩

theorem mem_grantedSince {before : Vector RegionEntry 16} {s : State} {r : Region} :
    r ∈ grantedSince before s ↔ s.locks[r].holder = some (self s) ∧ before[r].holder ≠ some (self s) := by
  simp [-Fin.getElem_fin, grantedSince, holdsRegion]

/-- One entry changed grants nothing where this station does not come to hold its region. -/
theorem grantedSince_set_none {r : Region} {e : RegionEntry} {s : State}
    (no : e.holder = some (self s) → s.locks[r].holder = some (self s)) :
    grantedSince s.locks (s.withLocks (s.locks.set r.val e)) = [] := by
  rw [List.eq_nil_iff_forall_not_mem]
  intro q granted
  obtain ⟨now, before⟩ := mem_grantedSince.1 granted
  have now : (s.locks.set r.val e)[q].holder = some (self s) := now
  rw [getElem_set_fin] at now
  split at now
  · rename_i its
    exact before (its ▸ no now)
  · exact before now

/-- And its region alone where it does. -/
theorem grantedSince_set_own {r : Region} {e : RegionEntry} {s : State} (now : e.holder = some (self s))
    (before : s.locks[r].holder ≠ some (self s)) :
    grantedSince s.locks (s.withLocks (s.locks.set r.val e)) = [r] := by
  refine filter_only (List.nodup_finRange 16) (List.mem_finRange r) fun q => ?_
  have its : holdsRegion q (s.withLocks (s.locks.set r.val e)) = true ↔
      (if q = r then e else s.locks[q]).holder = some (self s) := by
    rw [← getElem_set_fin]
    exact beq_iff_eq
  rw [Bool.and_eq_true, its, bne_iff_ne]
  by_cases same : q = r
  · subst same
    rw [if_pos rfl]
    exact ⟨fun _ => rfl, fun _ => ⟨now, before⟩⟩
  · rw [if_neg same]
    exact ⟨fun h => absurd h.1 h.2, fun h => absurd h same⟩

theorem completeGrants_set_none {r : Region} {e : RegionEntry} {s : State}
    (no : e.holder = some (self s) → s.locks[r].holder = some (self s)) :
    completeGrants s.locks (s.withLocks (s.locks.set r.val e)) = s.withLocks (s.locks.set r.val e) := by
  rw [completeGrants, grantedSince_set_none no]
  rfl

theorem completeGrants_set_own {r : Region} {e : RegionEntry} {s : State} (now : e.holder = some (self s))
    (before : s.locks[r].holder ≠ some (self s)) :
    completeGrants s.locks (s.withLocks (s.locks.set r.val e))
      = completeFor .claim r .granted (s.withLocks (s.locks.set r.val e)) := by
  rw [completeGrants, grantedSince_set_own now before]
  rfl

/-! ### YIELD entries (R40) -/

theorem yieldEntry_last {x : Station} {e : RegionEntry} (held : e.holder = some x) (alone : e.waiters = []) :
    yieldEntry x e = { holder := none, waiters := [] } := by
  rw [yieldEntry, if_pos held, alone]

theorem yieldEntry_passes {x w : Station} {ws : List Station} {e : RegionEntry} (held : e.holder = some x)
    (queue : e.waiters = w :: ws) : yieldEntry x e = { holder := some w, waiters := ws } := by
  rw [yieldEntry, if_pos held, queue]

theorem yieldEntry_other {x : Station} {e : RegionEntry} (other : e.holder ≠ some x) :
    yieldEntry x e = { e with waiters := e.waiters.filter (· != x) } := if_neg other

/-- The live CLAIM ticket of a region granted completes GRANTED. -/
theorem completeFor_sole {k : TicketNo} {t : Ticket} {r : Region} {s : State} (o : Completion) (sole : SoleLive k t s.port)
    (arg : t.arg = .region r) : completeFor t.kind r o s = s.withPort (completed k t o s.port) := by
  rw [completeFor, liveFor_sole sole arg]
  exact complete_live sole.1 sole.2.1

/-- A YIELD of a peer and its grants change the locks and the port alone. -/
theorem exec_yield {s : State} {h : FrameHead} {r : Region} {p : HostPort} {e : RegionEntry}
    (applies : Applies s { head := h, body := .yield r }) (entry : yieldEntry h.sender s.locks[r] = e)
    (granted : completeGrants s.locks ((reached { head := h, body := .yield r } s).withLocks (s.locks.set r.val e))
      = ((reached { head := h, body := .yield r } s).withLocks (s.locks.set r.val e)).withPort p) :
    exec (.yieldFrame h r) s =
      .next { taken { head := h, body := .yield r } s with locks := s.locks.set r.val e, port := p } := by
  refine exec_effect applies (t := ((reached { head := h, body := .yield r } s).withLocks (s.locks.set r.val e)).withPort p)
    ?_ rfl applies.2.1.1
  have peer : h.sender ≠ s.straps.number := applies.2.1.2.1
  have locks : lockEffect { head := h, body := .yield r } (reached { head := h, body := .yield r } s)
      = ((reached { head := h, body := .yield r } s).withLocks (s.locks.set r.val e)).withPort p := by
    rw [← granted, ← entry]
    exact if_neg peer
  rw [locks]
  exact congrArg some (if_neg peer)

/-! ### Damaged frames and collisions (R28, R149, R156, R160) -/

/-- A damaged frame handed to the Apply Unit unsets the reference sender and moves the doubt alone. -/
theorem handFrame_known (x : Station) (k : Bool) (q : Seq) (s : State) : handFrame (.damagedKnown x k q) s
    = ((s.withAccess { s.access with reference := none }).withApply { s.apply with
        doubt := if isHolder s.mship.state = true then doubtAfterKnown s x q else s.apply.doubt }, false) := by
  cases holder : isHolder s.mship.state with
  | true => exact congrArg (·, false) (if_pos holder)
  | false => exact congrArg (·, false) (if_neg (by rw [Bool.not_eq_true]; exact holder))

theorem handFrame_unknown (s : State) : handFrame .damagedUnknown s
    = ((s.withAccess { s.access with reference := none }).withApply { s.apply with
        doubt := if isHolder s.mship.state = true then doubtAfterUnknown s.apply.doubt else s.apply.doubt }, false) := by
  cases holder : isHolder s.mship.state with
  | true => exact congrArg (·, false) (if_pos holder)
  | false => exact congrArg (·, false) (if_neg (by rw [Bool.not_eq_true]; exact holder))

/-- The doubt after a damaged frame of this class (R28). -/
def doubtAfter (cls : FrameClass) (s : State) : Doubt :=
  match cls with
  | .good _ => s.apply.doubt
  | .damagedKnown x _ q => if isHolder s.mship.state = true then doubtAfterKnown s x q else s.apply.doubt
  | .damagedUnknown => if isHolder s.mship.state = true then doubtAfterUnknown s.apply.doubt else s.apply.doubt

theorem handFrame_damaged_eq {cls : FrameClass} (bad : ∀ f, cls ≠ .good f) (s : State) : handFrame cls s
    = ((s.withAccess { s.access with reference := none }).withApply { s.apply with doubt := doubtAfter cls s }, false) := by
  cases cls with
  | good f => exact absurd rfl (bad f)
  | damagedKnown x k q => exact handFrame_known x k q s
  | damagedUnknown => exact handFrame_unknown s

theorem recordHeard_changes (mark : Bool) (h : Heard) (s : State) : ∃ buffer record,
    recordHeard mark h s = s.withBus { s.bus with buffer := buffer, record := record } := by
  unfold recordHeard
  split <;> exact ⟨_, _, rfl⟩

/-- The doubt after a damaged frame is read from the Apply Unit, the station's number, its state and its table. -/
theorem doubtAfter_withBus (cls : FrameClass) (b : BusInterface) (s : State) :
    doubtAfter cls (s.withBus b) = doubtAfter cls s := by
  cases cls <;> rfl

/-- The station after it heard its own transmission damaged, before it reports the collision. -/
def struck (buffer : List Byte) (record : ReceiveRecord) (d : Doubt) (s : State) : State :=
  { s with
    bus := { s.bus with buffer := buffer, record := record }
    access := { s.access with reference := none }
    apply := { s.apply with doubt := d } }

/-- A collision: what was heard damaged, the fragment given up, and the report. -/
theorem collide_eq {mark : Bool} {h : Heard} {s : State} (sending : s.bus.state = .sending)
    (bad : ∀ f, classify s.straps.number mark h ≠ .good f) : ∃ buffer record,
    collide mark h s = enterAckWindow false .collided (reportCollision (dropOrphanFragment
      (struck buffer record (doubtAfter (classify s.straps.number mark h) s) s))) := by
  obtain ⟨buffer, record, heard⟩ := recordHeard_changes mark h s
  refine ⟨buffer, record, ?_⟩
  rw [collide, if_pos sending, self, heard, handFrame_damaged_eq bad, doubtAfter_withBus]
  rfl

/-- The eighth collision reports LINE_FAULT and starts the hold-off; any other is counted alone (R160, R161). -/
theorem reportCollision_eighth {s : State} (eighth : s.access.collisions = 7) : reportCollision s = postNotice .lineFault
    (s.withAccess { s.access with
      reference := none
      collisions := min 8 (s.access.collisions + 1)
      holdOff := some 16384 }) :=
  if_pos (by
    rw [eighth]
    decide)

theorem reportCollision_other {s : State} (other : s.access.collisions ≠ 7) : reportCollision s =
    s.withAccess { s.access with reference := none, collisions := min 8 (s.access.collisions + 1) } :=
  if_neg (by
    simp only [Config.collisionLimit]
    omega)

/-- A fragment whose bundle stands, that was heard, or that is none, stays in the slot. -/
theorem dropOrphanFragment_kept {s : State}
    (kept : ∀ sl, s.tx.slot = some sl → s.bundle.outgoing ≠ none ∨ sl.heard = true ∨ ∀ w, sl.frame.body ≠ .write w) :
    dropOrphanFragment s = s := by
  unfold dropOrphanFragment
  split
  · rename_i given
    unfold abandonUnheardFragment
    split
    · rename_i sl its
      split
      · rename_i w unheard body
        obtain h | h | h := kept sl its
        · exact absurd given h
        · exact absurd (h.symm.trans unheard) (by decide)
        · exact absurd body (h w)
      · rfl
    · rfl
  · rfl

end Sys2Proof.Machine

namespace Sys2Proof

open Sys2Proof.Machine Sys2Proof.Safety

/-- Settles O38: the yield entry, case by case, with the grant it gives this station. -/
theorem yieldPassesRegion : Obligations.YieldPassesRegion := by
  intro s h r f applies e
  have peer : h.sender ≠ s.straps.number := applies.2.1.2.1
  have no : ∀ entry : RegionEntry, (entry.holder = some s.straps.number → e.holder = some s.straps.number) →
      completeGrants s.locks ((reached f s).withLocks (s.locks.set r.val entry))
        = ((reached f s).withLocks (s.locks.set r.val entry)).withPort s.port := fun entry none =>
    completeGrants_set_none (s := reached f s) none
  refine ⟨fun held alone => ?_, fun w ws held queue other => ?_, fun ws k t held queue sole claim arg => ?_, fun other => ?_⟩
  · exact exec_yield applies (yieldEntry_last held alone) (no _ nofun)
  · exact exec_yield applies (yieldEntry_passes held queue) (no _ fun own => absurd (Option.some.inj own) other)
  · refine exec_yield applies (yieldEntry_passes held queue) ?_
    have before : e.holder ≠ some s.straps.number := fun own => peer (Option.some.inj (held.symm.trans own))
    have granted := completeFor_sole
      (s := (reached f s).withLocks (s.locks.set r.val { holder := some s.straps.number, waiters := ws }))
      .granted sole arg
    rw [claim] at granted
    exact (completeGrants_set_own (s := reached f s)
      (e := { holder := some s.straps.number, waiters := ws }) rfl before).trans granted
  · have entry : yieldEntry h.sender e = { e with waiters := e.waiters.filter fun w => decide (w ≠ h.sender) } := by
      rw [yieldEntry_other other]
      congr 2
      funext w
      rw [Bool.eq_iff_iff, bne_iff_ne, decide_eq_true_iff]
    exact exec_yield applies entry (no _ id)

/-- Settles O53: the doubt by the table, and the reference sender unset. -/
theorem damagedFrameSetsDoubt : Obligations.DamagedFrameSetsDoubt := by
  intro s mark h free ended bad
  obtain ⟨buffer, record, heard⟩ := recordHeard_changes mark h s
  refine ⟨heardEnd mark h (classify s.straps.number mark h) s,
    (atEvent_free _ free).trans (congrArg Host.Outcome.next (heardBytesEnd_over h ended)), ?_⟩
  rw [heardEnd, heard, handFrame_damaged_eq bad, doubtAfter_withBus]
  have doubt : ∀ d, (enterAckWindow false .heard (((s.withBus { s.bus with buffer := buffer, record := record }).withAccess
      { s.access with reference := none }).withApply { s.apply with doubt := d })).apply.doubt = d := fun _ => rfl
  refine ⟨rfl, rfl, rfl, rfl, fun out => ?_, fun holder => ⟨fun x q known => ?_, fun cls unknown => ?_,
    fun x k q cls unknown => ?_⟩⟩
  · refine (doubt _).trans ?_
    cases cls : classify s.straps.number mark h with
    | good f => exact absurd cls (bad f)
    | damagedKnown x k q => exact if_neg (by rw [out]; nofun)
    | damagedUnknown => exact if_neg (by rw [out]; nofun)
  · refine (doubt _).trans ?_
    cases cls : classify s.straps.number mark h with
    | good f => exact absurd cls (bad f)
    | damagedKnown y k p => exact (if_pos holder).trans (by rw [doubtAfterKnown, known])
    | damagedUnknown => exact (if_pos holder).trans (by rw [known]; rfl)
  · refine (doubt _).trans ?_
    rw [cls]
    refine (if_pos holder).trans ?_
    cases was : s.apply.doubt with
    | clear => rfl
    | unknown => rfl
    | known x q => exact absurd was (unknown x q)
  · rw [cls]
    have its : ∀ d, doubtAfterKnown s x q = d → doubtAfter (.damagedKnown x k q) s = d := fun d h => (if_pos holder).trans h
    have sender : s.mship.table[x].state ≠ .absent → isTableSender s.mship.table x = true := bne_iff_ne.2
    have stranger : s.mship.table[x].state = .absent → isTableSender s.mship.table x = false := fun h => by
      rw [isTableSender, h]
      rfl
    refine ⟨fun own => (doubt _).trans (its _ ?_), fun peer absent => (doubt _).trans (its _ ?_),
      fun peer known last => (doubt _).trans (its _ ?_), fun peer known ahead => (doubt _).trans (its _ ?_)⟩
    · rw [doubtAfterKnown, self]
      cases was : s.apply.doubt with
      | clear => exact if_pos own
      | unknown => exact if_pos own
      | known y p => exact absurd was (unknown y p)
    · rw [doubtAfterKnown, self, stranger absent]
      cases was : s.apply.doubt with
      | clear => exact if_neg peer
      | unknown => exact (if_neg peer).trans (if_neg fun h => absurd h.1 (by decide))
      | known y p => exact absurd was (unknown y p)
    · rw [doubtAfterKnown, self, sender known]
      cases was : s.apply.doubt with
      | clear => exact (if_neg peer).trans (if_pos last)
      | unknown => exact (if_neg peer).trans (if_neg fun h => h.2 last)
      | known y p => exact absurd was (unknown y p)
    · rw [doubtAfterKnown, self, sender known]
      cases was : s.apply.doubt with
      | clear => exact (if_neg peer).trans (if_neg ahead)
      | unknown => exact (if_neg peer).trans (if_pos ⟨rfl, ahead⟩)
      | known y p => exact absurd was (unknown y p)

/-- Settles O54: the count, the notice and the hold-off, and the doubt of what was heard damaged. -/
theorem collisionIsCounted : Obligations.CollisionIsCounted := by
  intro s mark h free sending bad kept
  obtain ⟨buffer, record, eq⟩ := collide_eq sending bad
  refine ⟨collide mark h s, atEvent_free _ free, ?_⟩
  generalize doubtAfter (classify s.straps.number mark h) s = d at eq
  rw [dropOrphanFragment_kept (s := struck buffer record d s) kept] at eq
  have counted : ∀ {p access},
    reportCollision (struck buffer record d s) = ((struck buffer record d s).withAccess access).withPort p →
      ((collide mark h s).bus.state = .ackWindow ∧ (collide mark h s).bus.ackDrive = false
        ∧ (collide mark h s).access = access ∧ (collide mark h s).port = p
        ∧ { collide mark h s with bus := s.bus, access := s.access, port := s.port, apply := s.apply } = s
        ∧ { (collide mark h s).apply with doubt := s.apply.doubt } = s.apply) := fun its => by
    rw [eq, its]
    exact ⟨rfl, rfl, rfl, rfl, rfl, rfl⟩
  by_cases eighth : s.access.collisions = 7
  · have report := reportCollision_eighth (s := struck buffer record d s) eighth
    rw [if_pos eighth]
    by_cases room : s.port.notices.length + reserved s.port < 32
    · obtain ⟨state, drive, access, port, same, apply⟩ :=
        counted (report.trans (postNotice_room (roomFree_true (by exact room))))
      exact ⟨state, drive, access, fun other => absurd eighth other, fun _ _ => port, fun _ full =>
        absurd room (Nat.not_lt.2 full),
        same, apply⟩
    · obtain ⟨state, drive, access, port, same, apply⟩ :=
        counted (report.trans (postNotice_full (roomFree_false (by exact Nat.not_lt.1 room))))
      exact ⟨state, drive, access, fun other => absurd eighth other, fun _ has => absurd has room, fun _ _ => port, same,
        apply⟩
  · have report := reportCollision_other (s := struck buffer record d s) eighth
    rw [if_neg eighth]
    obtain ⟨state, drive, access, port, same, apply⟩ := counted (p := s.port)
      (access := { s.access with reference := none, collisions := min 8 (s.access.collisions + 1) }) (report.trans rfl)
    exact ⟨state, drive, access, fun _ => port, fun its => absurd its eighth, fun its => absurd its eighth, same, apply⟩

end Sys2Proof
end

section
/-! The frame a station drives stays in its slot whatever its host asks; and the reference sender: every carrier end sets
or unsets it, and nothing else moves it (R156). -/

namespace Sys2Proof.Machine

open Sys2Proof.Safety

/-! ### The slot under a request (R73, log 17) -/

theorem tx_complete (k : TicketNo) (o : Completion) (s : State) : (complete k o s).tx = s.tx := by
  obtain ⟨p, hp⟩ := complete_port k o s
  rw [hp]
  rfl

theorem slot_beginMend (s : State) : (beginMend s).tx.slot = s.tx.slot := by
  obtain ⟨p, m, t, h⟩ := beginMend_changes s
  rw [h]
  rfl

theorem tx_verifyForHost (c : CellIx) (s : State) : (verifyForHost c s).tx = s.tx := by
  have damaged : (damageCell c s).tx = s.tx := by
    unfold damageCell listForMend
    split <;> rfl
  unfold verifyForHost
  split
  · split
    · rfl
    · exact damaged
  · split
    · rfl
    · exact damaged
  · rfl
  · rfl

theorem tx_foldl_verifyForHost (cs : List CellIx) (s : State) : (cs.foldl (fun s c => verifyForHost c s) s).tx = s.tx := by
  induction cs generalizing s with
  | nil => rfl
  | cons c cs ih => rw [List.foldl_cons, ih, tx_verifyForHost]

theorem slot_withTicket {f : TicketNo → State → State} {s : State} (kept : ∀ k, (f k s).tx.slot = s.tx.slot) :
    (withTicket f s).tx.slot = s.tx.slot := by
  unfold withTicket
  split
  · exact kept _
  · rfl

theorem tx_leaveBundle {s : State} (sending : s.bus.state = .sending) : (leaveBundle s).tx = s.tx := by
  have lost : (completeCommit .lost s).tx = s.tx ∧ (completeCommit .lost s).bus = s.bus := by
    unfold completeCommit
    split
    · obtain ⟨p, hp⟩ := complete_port (‹Outgoing›).ticket .lost s
      rw [hp]
      exact ⟨rfl, rfl⟩
    · exact ⟨rfl, rfl⟩
  unfold leaveBundle
  split
  · split
    · rfl
    · exact (congrArg State.tx (if_pos (by rw [lost.2, sending]))).trans lost.1
  · rfl

theorem slot_acceptLeave {k : TicketNo} {s : State} (sending : s.bus.state = .sending) :
    (acceptLeave k s).tx.slot = s.tx.slot := by
  obtain ⟨p, hp⟩ := completeAll_port (ticketsIn (leaveBundle s).port (· == .queued)) .cancelled (leaveBundle s)
  simp [acceptLeave, hp, accept, respond, setPhase, enqueue, issue, stopSilence, tx_leaveBundle sending]

theorem slot_choice {p : Prop} [Decidable p] {f g : State → State} {s : State} (hf : (f s).tx.slot = s.tx.slot)
    (hg : (g s).tx.slot = s.tx.slot) : ((if p then f else g) s).tx.slot = s.tx.slot := by
  split <;> assumption

theorem slot_ite {p : Prop} [Decidable p] {s t u : State} (ht : t.tx.slot = s.tx.slot) (hu : u.tx.slot = s.tx.slot) :
    (if p then t else u).tx.slot = s.tx.slot := by
  split <;> assumption

theorem slot_doConfigure (args : List Byte) (s : State) : (doConfigure args s).tx.slot = s.tx.slot := by
  unfold doConfigure
  split
  · rfl
  · exact slot_ite rfl rfl

theorem slot_doReadCells (args : List Byte) (s : State) : (doReadCells args s).tx.slot = s.tx.slot := by
  unfold doReadCells
  split
  · rfl
  · exact (slot_beginMend _).trans (congrArg Transmit.slot (tx_foldl_verifyForHost _ s))

theorem slot_doReadRegion (args : List Byte) (s : State) : (doReadRegion args s).tx.slot = s.tx.slot := by
  unfold doReadRegion
  split <;> rfl

theorem slot_doTakeNotice (args : List Byte) (s : State) : (doTakeNotice args s).tx.slot = s.tx.slot := by
  unfold doTakeNotice
  split <;> rfl

theorem slot_doSetWatch (args : List Byte) (s : State) : (doSetWatch args s).tx.slot = s.tx.slot := by
  unfold doSetWatch
  split <;> rfl

theorem slot_doStageCell (args : List Byte) (s : State) : (doStageCell args s).tx.slot = s.tx.slot := by
  unfold doStageCell
  split
  · rfl
  · exact slot_ite rfl (slot_ite rfl (slot_ite rfl rfl))

theorem slot_doUnstageCell (args : List Byte) (s : State) : (doUnstageCell args s).tx.slot = s.tx.slot := by
  unfold doUnstageCell
  split
  · rfl
  · exact slot_ite rfl rfl

theorem slot_doJoin (args : List Byte) (s : State) : (doJoin args s).tx.slot = s.tx.slot :=
  slot_ite rfl (slot_withTicket fun _ => rfl)

theorem slot_doLeave {args : List Byte} {s : State} (sending : s.bus.state = .sending) :
    (doLeave args s).tx.slot = s.tx.slot :=
  slot_ite rfl (slot_withTicket fun _ => slot_acceptLeave sending)

theorem slot_doClaim (args : List Byte) (s : State) : (doClaim args s).tx.slot = s.tx.slot := by
  unfold doClaim
  split
  · rfl
  · exact slot_ite rfl (slot_ite rfl (slot_withTicket fun _ => rfl))

theorem slot_doRelease (args : List Byte) (s : State) : (doRelease args s).tx.slot = s.tx.slot := by
  unfold doRelease
  split
  · rfl
  · exact slot_ite rfl (slot_ite rfl (slot_ite rfl (slot_ite rfl (slot_withTicket fun _ => rfl))))

theorem slot_withdrawNow (j : TicketNo) (s : State) : (withdrawNow j s).tx.slot = s.tx.slot := by
  show (complete _ _ _).tx.slot = _
  rw [tx_complete]
  rfl

theorem slot_doWithdraw (args : List Byte) (s : State) : (doWithdraw args s).tx.slot = s.tx.slot := by
  unfold doWithdraw
  split
  · rfl
  · refine slot_ite rfl ?_
    split
    · rfl
    · exact slot_ite rfl (slot_ite (slot_withdrawNow _ s) (slot_withTicket fun _ => rfl))

theorem slot_doCommit (args : List Byte) (s : State) : (doCommit args s).tx.slot = s.tx.slot :=
  slot_ite rfl (slot_ite rfl (slot_ite rfl (slot_withTicket fun _ => rfl)))

theorem slot_doSignal (args : List Byte) (s : State) : (doSignal args s).tx.slot = s.tx.slot := by
  unfold doSignal
  split
  · rfl
  · exact slot_ite rfl (slot_ite rfl (slot_withTicket fun _ => rfl))

/-- The frame being driven stays in the slot whatever request comes to its check point. -/
theorem slot_requestPoint {rq : Request} {s : State} (sending : s.bus.state = .sending) :
    (requestPoint rq s).tx.slot = s.tx.slot :=
  slot_choice rfl <| slot_choice (slot_doConfigure _ s) <| slot_choice (slot_doReadCells _ s) <|
  slot_choice (slot_doReadRegion _ s) <| slot_choice rfl <| slot_choice (slot_doTakeNotice _ s) <|
  slot_choice (slot_doSetWatch _ s) <| slot_choice (slot_doStageCell _ s) <| slot_choice (slot_doUnstageCell _ s) <|
  slot_choice rfl <| slot_choice (slot_doJoin _ s) <| slot_choice (slot_doLeave sending) <|
  slot_choice (slot_doClaim _ s) <| slot_choice (slot_doRelease _ s) <| slot_choice (slot_doWithdraw _ s) <|
  slot_choice (slot_doCommit _ s) <| slot_choice (slot_doSignal _ s) rfl

theorem slot_carryOut {s : State} (sending : s.bus.state = .sending) : (carryOut s).tx.slot = s.tx.slot := by
  unfold carryOut
  split
  · exact slot_requestPoint sending
  · rfl
  · rfl

/-! ### The reference sender -/

/-- Every move but those of the reference sender. -/
def Allowed.noReference : Allowed := ⟨True, False, True⟩

theorem reference_handlePeer (f : Frame) (s : State) : (handlePeer f s).1.access.reference = s.access.reference :=
  (handlePeer_moves (a := .noReference) trivial f s).reference_kept id

theorem reference_handFrame_good (f : Frame) (s : State) :
    (handFrame (.good f) s).1.access.reference = some f.head.sender :=
  (reference_handlePeer f _).trans ((meetListening_moves (a := .noReference) _).reference_kept id)

/-- A good frame's carrier end leaves its sender, a damaged one's none. -/
theorem reference_heardEnd_good (mark : Bool) (h : Heard) (f : Frame) (s : State) :
    (heardEnd mark h (.good f) s).access.reference = some f.head.sender := reference_handFrame_good f _

theorem reference_ownEnd (sl : Slot) (s : State) : (ownEnd sl s).access.reference = some s.straps.number := by
  refine ((handleOwn_moves (a := .noReference) trivial _ _ _ _).reference_kept id).trans ?_
  refine ((meetListening_moves (a := .noReference) _).reference_kept id).trans ?_
  unfold recordHeard
  rfl

end Sys2Proof.Machine

namespace Sys2Proof

open Sys2Proof.Machine Sys2Proof.Safety

/-- Settles O55: each carrier end, and every other command by what it can move. -/
theorem referenceSenderFollowsCarrierEnds : Obligations.ReferenceSenderFollowsCarrierEnds := by
  refine ⟨fun s t f out ok ended run => ?_, fun s t sl out sending slot run => ?_, fun s t mark h out ended run => ?_,
    fun s t mark h out sending run => ?_, fun s t c reset run => ?_,
      fun s t c plain released other damaged collided run => ?_,
    fun s t l run => ?_⟩
  · rw [exec_frameCommand, atEvent_running _ out] at run
    obtain rfl := Host.Outcome.next.inj run
    have bus := carryOut_bus s
    have straps := carryOut_straps s
    generalize carryOut s = u at bus straps
    have cls : classOfFrame (self u) true f = .good f := if_pos (show frameOkAt u.straps.number f = true from straps ▸ ok)
    have good : carrierEnd f u = heardEnd true (onLine (frameBytes f)) (.good f) u := by
      unfold carrierEnd
      rw [bus]
      obtain idle | ⟨receiving, mark⟩ := ended
      · rw [idle, cls]
      · rw [receiving, mark, cls]
    rw [good, reference_heardEnd_good]
  · rw [exec_frameCommand, atEvent_running _ out] at run
    obtain rfl := Host.Outcome.next.inj run
    have own : carrierEnd sl.frame (carryOut s) = ownEnd sl (carryOut s) := by
      rw [carrierEnd, carryOut_bus, sending]
      dsimp only
      rw [slot_carryOut sending, slot]
      exact if_pos rfl
    rw [own, reference_ownEnd, carryOut_straps]
  · rw [show exec (.damagedFrame h) s = .next (heardBytesEnd h (carryOut s)) from atEvent_running _ out] at run
    obtain rfl := Host.Outcome.next.inj run
    have ended' : CarrierOver mark (carryOut s) := by simpa only [CarrierOver, carryOut_bus] using ended
    rw [heardBytesEnd_over h ended', carryOut_straps]
    cases cls : classify s.straps.number mark h with
    | good f => exact reference_heardEnd_good mark h f _
    | damagedKnown x k q => exact (heardEnd_damaged mark h _ fun _ e => by cases e).2
    | damagedUnknown => exact (heardEnd_damaged mark h _ fun _ e => by cases e).2
  · rw [show exec (.collision mark h) s = .next (collide mark h (carryOut s)) from atEvent_running _ out] at run
    obtain rfl := Host.Outcome.next.inj run
    have driving : (carryOut s).bus.state = .sending := by rw [carryOut_bus, sending]
    rw [collide, if_pos driving]
    exact (reportCollision_unsets _).2
  · obtain rfl | ⟨n, r, rfl⟩ := reset
    · obtain rfl := Host.Outcome.next.inj run
      rfl
    · obtain rfl := Host.Outcome.next.inj run
      rfl
  · obtain ⟨u, next, moves⟩ := exec_moves (a := .noReference) trivial ⟨plain, released⟩ (fun ends => by
        obtain ⟨f, rfl⟩ | ⟨h, rfl⟩ | ⟨m, h, rfl⟩ := ends
        · exact other f rfl
        · exact damaged h rfl
        · exact collided m h rfl) (fun _ => trivial) (s := s)
    obtain rfl := Host.Outcome.next.inj (next.symm.trans run)
    exact moves.reference_kept id
  · obtain rfl := Host.Outcome.next.inj run
    refine congrArg Host.Outcome.next ?_
    cases reset : s.straps.inReset with
    | true => rfl
    | false =>
      show checkPoint 0x01 doStatus _ = _
      unfold checkPoint
      dsimp only
      cases phase : s.port.phase with
      | working rq => dsimp only; split <;> rfl
      | idle => rfl
      | holding r => rfl

end Sys2Proof
end

section
/-! The commit point of a bundle: its records written, its regions reported, its cells gone from the mend list. -/

namespace Sys2Proof.Machine

open Sys2Proof.Safety

/-! ### What notices leave of the port -/

/-- A port after unsolicited notices: some may stand at the tail, and the mark may be set. -/
structure Grown (p q : HostPort) : Prop where
  tickets : q.tickets = p.tickets
  order : q.order = p.order
  phase : q.phase = p.phase
  watch : q.watch = p.watch
  refusedLast : q.refusedLast = p.refusedLast
  sdo : q.sdo = p.sdo
  notices : p.notices <+: q.notices
  dropped : p.noticesDropped = true → q.noticesDropped = true

theorem Grown.refl (p : HostPort) : Grown p p := ⟨rfl, rfl, rfl, rfl, rfl, rfl, List.prefix_rfl, id⟩

theorem Grown.trans {p q r : HostPort} (h : Grown p q) (k : Grown q r) : Grown p r :=
  ⟨k.tickets.trans h.tickets, k.order.trans h.order, k.phase.trans h.phase, k.watch.trans h.watch,
    k.refusedLast.trans h.refusedLast, k.sdo.trans h.sdo, h.notices.trans k.notices, k.dropped ∘ h.dropped⟩

theorem postNotice_grown (n : Notice) (s : State) : Grown s.port (postNotice n s).port := by
  unfold postNotice
  split
  · exact ⟨rfl, rfl, rfl, rfl, rfl, rfl, List.prefix_append _ _, id⟩
  · exact ⟨rfl, rfl, rfl, rfl, rfl, rfl, List.prefix_rfl, fun _ => rfl⟩

/-- Mends begun change the Mend Unit, the MEND slot and the notices; the mend list keeps a tail of the cells. -/
theorem beginFrom_grown (cs : List CellIx) (s : State) : ∃ p m t,
    beginFrom cs s = ((s.withPort p).withMend m).withTx { s.tx with mend := t } ∧ Grown s.port p ∧ m.cells <:+ cs := by
  induction cs generalizing s with
  | nil => exact ⟨s.port, { cells := [], current := none }, s.tx.mend, rfl, .refl _, List.suffix_rfl⟩
  | cons c rest ih =>
    unfold beginFrom
    split
    · exact ⟨s.port, _, _, rfl, .refl _, List.suffix_rfl⟩
    · obtain ⟨p, hp, -⟩ := postNotice_changes (.cellLost c) s
      obtain ⟨p', m, t, h, grown, suffix⟩ := ih (postNotice (.cellLost c) s)
      refine ⟨p', m, t, by rw [h, hp]; rfl, (postNotice_grown _ s).trans grown, suffix.trans (List.suffix_cons _ _)⟩

theorem beginMend_grown (s : State) : ∃ p m t,
    beginMend s = ((s.withPort p).withMend m).withTx { s.tx with mend := t } ∧ Grown s.port p
      ∧ m.cells <:+ s.mend.cells := by
  unfold beginMend
  split
  · exact beginFrom_grown _ s
  · exact ⟨s.port, s.mend, s.tx.mend, rfl, .refl _, List.suffix_rfl⟩

/-! ### The records written (R70) -/

/-- The record of a cell that a bundle's record has written (R9, R70). -/
def writtenCell (s : State) (r : WriteRecord) : CellRec :=
  { version := r.version, check := cellCheck r.version r.data, status := .present
    fresh := s.cells[r.cell].fresh || s.mship.state == .filling, upset := false }

theorem writtenCell_eq (s : State) (r : WriteRecord) : writtenCell s r =
    { version := r.version, check := cellCheck r.version r.data, status := .present
      fresh := if s.mship.state = .filling then true else s.cells[r.cell].fresh, upset := false } := by
  unfold writtenCell
  congr 1
  split
  · rename_i filling
    rw [filling]
    exact Bool.or_true _
  · rename_i other
    rw [beq_eq_false_iff_ne.2 other, Bool.or_false]

theorem writeRecord_cell (s : State) (r : WriteRecord) (c : CellIx) :
    (writeRecord s r).cells[c] = if c = r.cell then writtenCell s r else s.cells[c] := getElem_set_fin _ _ _ _

theorem writeRecord_data {s : State} {r : WriteRecord} (law : Memory.wf s.mem) (c : CellIx) :
    cellData (writeRecord s r).mem c = if c = r.cell then r.data else cellData s.mem c := by
  split
  · rename_i its
    rw [its]
    exact cellData_writeCellData_same _ _ law
  · rename_i other
    exact cellData_writeCellData_ne _ _ other

/-- The records of a bundle that names no cell twice, each written, and no other cell. -/
theorem writeRecords {recs : List WriteRecord} {s : State} (law : Memory.wf s.mem) (once : (recs.map (·.cell)).Nodup) :
    ∃ (m : Memory) (cs : Vector CellRec 256), recs.foldl writeRecord s = (s.withMem m).withCells cs
      ∧ (∀ r ∈ recs, cellData m r.cell = r.data ∧ cs[r.cell] = writtenCell s r)
      ∧ ∀ x : CellIx, (∀ r ∈ recs, r.cell ≠ x) → cellData m x = cellData s.mem x ∧ cs[x] = s.cells[x] := by
  induction recs generalizing s with
  | nil => exact ⟨s.mem, s.cells, rfl, nofun, fun _ _ => ⟨rfl, rfl⟩⟩
  | cons r rs ih =>
    rw [List.map_cons, List.nodup_cons] at once
    obtain ⟨new, others⟩ := once
    obtain ⟨m, cs, eq, inside, outside⟩ := ih (s := writeRecord s r) (writeCellData_wf _ _ law) others
    have apart : ∀ r' ∈ rs, r'.cell ≠ r.cell := fun r' mem same => new (List.mem_map.2 ⟨r', mem, same⟩)
    refine ⟨m, cs, eq, fun r' mem => ?_, fun x free => ?_⟩
    · obtain rfl | mem := List.mem_cons.1 mem
      · obtain ⟨data, cell⟩ := outside r'.cell apart
        rw [data, cell, writeRecord_cell, writeRecord_data law, if_pos rfl, if_pos rfl]
        exact ⟨rfl, rfl⟩
      · obtain ⟨data, cell⟩ := inside r' mem
        refine ⟨data, cell.trans ?_⟩
        rw [writtenCell, writeRecord_cell, if_neg (apart r' mem)]
        rfl
    · obtain ⟨this, free⟩ := List.forall_mem_cons.1 free
      obtain ⟨data, cell⟩ := outside x free
      rw [data, cell, writeRecord_cell, writeRecord_data law, if_neg (Ne.symm this), if_neg (Ne.symm this)]
      exact ⟨rfl, rfl⟩

/-! ### The regions reported (R136, R137) -/

/-- A write of region r by x is reported, or its report found no room. -/
def Reported (r : Region) (x : Station) (p : HostPort) : Prop :=
  (∃ again, .changed r x again ∈ p.notices) ∨ p.noticesDropped = true

theorem Reported.grown {r : Region} {x : Station} {p q : HostPort} (h : Reported r x p) (grown : Grown p q) :
    Reported r x q :=
  h.imp (fun ⟨again, mem⟩ => ⟨again, grown.notices.subset mem⟩) grown.dropped

/-- A port after CHANGED notices alone. -/
structure SameTickets (p q : HostPort) : Prop where
  tickets : q.tickets = p.tickets
  phase : q.phase = p.phase
  watch : q.watch = p.watch

theorem postChanged_same (r : Region) (x : Station) (s : State) : SameTickets s.port (postChanged r x s).port := by
  unfold postChanged
  split
  · exact ⟨rfl, rfl, rfl⟩
  · have grown := postNotice_grown (.changed r x false) s
    exact ⟨grown.tickets, grown.phase, grown.watch⟩

theorem postChanged_reports (r : Region) (x : Station) (s : State) : Reported r x (postChanged r x s).port := by
  unfold postChanged
  split
  · rename_i standing
    obtain ⟨n, mem, its⟩ := List.any_eq_true.1 standing
    exact .inl ⟨true, List.mem_map.2 ⟨n, mem, if_pos its⟩⟩
  · unfold postNotice
    split
    · exact .inl ⟨false, List.mem_append_right _ (List.mem_singleton.2 rfl)⟩
    · exact .inr rfl

/-- A later report by the same writer leaves a region reported. -/
theorem postChanged_keeps {r q : Region} {x : Station} {s : State} (h : Reported r x s.port) :
    Reported r x (postChanged q x s).port := by
  by_cases same : q = r
  · subst same
    exact postChanged_reports q x s
  · unfold postChanged
    split
    · refine h.imp (fun ⟨again, mem⟩ => ⟨again, List.mem_map.2 ⟨_, mem, if_neg fun other => ?_⟩⟩) id
      obtain ⟨y, b, e⟩ := (isChangedFor_iff _ _).1 other
      cases e
      exact same rfl
    · exact h.grown (postNotice_grown _ s)

theorem foldl_postChanged (rs : List Region) (x : Station) (s : State) :
    (∃ p, rs.foldl (fun s r => postChanged r x s) s = s.withPort p ∧ SameTickets s.port p)
      ∧ (∀ r, Reported r x s.port → Reported r x (rs.foldl (fun s r => postChanged r x s) s).port)
      ∧ ∀ r ∈ rs, Reported r x (rs.foldl (fun s r => postChanged r x s) s).port := by
  induction rs generalizing s with
  | nil => exact ⟨⟨s.port, rfl, rfl, rfl, rfl⟩, fun _ => id, nofun⟩
  | cons q rs ih =>
    obtain ⟨⟨p, eq, same⟩, kept, each⟩ := ih (postChanged q x s)
    obtain ⟨p', eq'⟩ := postChanged_port q x s
    have first := postChanged_same q x s
    refine ⟨⟨p, ?_, same.tickets.trans first.tickets, same.phase.trans first.phase, same.watch.trans first.watch⟩,
      fun r h => kept r (postChanged_keeps h), fun r mem => ?_⟩
    · rw [List.foldl_cons, eq, eq']
      rfl
    · obtain rfl | mem := List.mem_cons.1 mem
      · exact kept r (postChanged_reports r x s)
      · exact each r mem

theorem mem_regionsTouched {recs : List WriteRecord} {r : Region} :
    r ∈ regionsTouched recs ↔ ∃ a ∈ recs, regionOf a.cell = r := by
  simp [regionsTouched]

/-- The report of a written bundle: the port alone, and every watched region of it. -/
theorem reportChanges_reports (x : Station) (recs : List WriteRecord) (s : State) :
    ∃ p, reportChanges x recs s = s.withPort p ∧ SameTickets s.port p
      ∧ ∀ a ∈ recs, flag s.port.watch (regionOf a.cell) = true → Reported (regionOf a.cell) x p := by
  obtain ⟨⟨p, eq, same⟩, -, each⟩ := foldl_postChanged ((regionsTouched recs).filter (flag s.port.watch)) x s
  refine ⟨p, eq, same, fun a mem watched => ?_⟩
  have its := each (regionOf a.cell) (List.mem_filter.2 ⟨mem_regionsTouched.2 ⟨a, mem, rfl⟩, watched⟩)
  rw [eq] at its
  exact its

/-! ### The mend list after a bundle (R126) -/

theorem mendCellWritten_changes (c : CellIx) (s : State) : ∃ m t,
    mendCellWritten c s = (s.withMend m).withTx { s.tx with mend := t } ∧ List.Sublist m.cells s.mend.cells
      ∧ (s.mend.cells.Nodup → c ∉ m.cells) := by
  unfold mendCellWritten
  split
  · rename_i current
    refine ⟨_, _, rfl, List.tail_sublist _, fun once => ?_⟩
    have head : s.mend.cells.head? = some c := by
      unfold currentCell at current
      split at current
      · exact current
      · cases current
    obtain ⟨rest, eq⟩ := List.head?_eq_some_iff.1 head
    rw [eq, List.nodup_cons] at once
    rw [eq]
    exact once.1
  · refine ⟨{ s.mend with cells := s.mend.cells.filter (· != c) }, s.tx.mend, rfl, List.filter_sublist, fun _ mem => ?_⟩
    exact bne_iff_ne.1 (List.mem_filter.1 mem).2 rfl

theorem foldl_mendCellWritten (recs : List WriteRecord) (s : State) : ∃ m t,
    recs.foldl (fun s r => mendCellWritten r.cell s) s = (s.withMend m).withTx { s.tx with mend := t }
      ∧ List.Sublist m.cells s.mend.cells ∧ (s.mend.cells.Nodup → ∀ r ∈ recs, r.cell ∉ m.cells) := by
  induction recs generalizing s with
  | nil => exact ⟨s.mend, s.tx.mend, rfl, List.Sublist.refl _, fun _ => nofun⟩
  | cons r rs ih =>
    obtain ⟨m, t, eq, sub, gone⟩ := mendCellWritten_changes r.cell s
    obtain ⟨m', t', eq', sub', gone'⟩ := ih (mendCellWritten r.cell s)
    rw [eq] at sub' gone'
    refine ⟨m', t', ?_, sub'.trans sub, fun once r' mem => ?_⟩
    · rw [List.foldl_cons, eq', eq]
      rfl
    · obtain rfl | mem := List.mem_cons.1 mem
      · exact fun still => gone once (sub'.subset still)
      · exact gone' (once.sublist sub) r' mem

/-- The Mend Unit's step after a bundle: the port's notices may grow, and the bundle's cells are gone from its list. -/
theorem mendAfterWrite_changes (recs : List WriteRecord) (s : State) : ∃ p m t,
    mendAfterWrite recs s = ((s.withPort p).withMend m).withTx { s.tx with mend := t } ∧ Grown s.port p
      ∧ (s.mend.cells.Nodup → ∀ r ∈ recs, r.cell ∉ m.cells) := by
  obtain ⟨m, t, eq, -, gone⟩ := foldl_mendCellWritten recs s
  obtain ⟨p, m', t', eq', grown, suffix⟩ := beginMend_grown ((s.withMend m).withTx { s.tx with mend := t })
  refine ⟨p, m', t', ?_, grown, fun once r mem still => gone once r mem (suffix.subset still)⟩
  rw [mendAfterWrite, eq, eq']
  rfl

/-! ### The commit point (R68, R69, R70) -/

theorem holderCheck_iff {x : Station} {recs : List WriteRecord} {s : State} :
    holderCheck x recs s = true ↔ ∀ r ∈ recs, s.locks[regionOf r.cell].holder = some x := by
  simp [-Fin.getElem_fin, holderCheck]

/-- A record's version is accepted by an unmarked cell at a FILLING station, by a DAMAGED cell, and by a PRESENT cell as the
next or as none (R69). -/
theorem versionAccepted_of {s : State} {r : WriteRecord} (h : (s.mship.state = .filling ∧ s.cells[r.cell].fresh = false)
      ∨ s.cells[r.cell].status = .damaged ∨ (s.cells[r.cell].status = .present
        ∧ (r.version = 0 ∨ r.version = succVersion s.cells[r.cell].version))) : versionAccepted s r = true := by
  rw [versionAccepted, Bool.or_eq_true]
  obtain ⟨filling, unmarked⟩ | damaged | ⟨present, version⟩ := h
  · exact .inl (by rw [filling, unmarked]; rfl)
  · exact .inr (by rw [damaged])
  · refine .inr ?_
    rw [present]
    simpa [-Fin.getElem_fin, or_comm] using version

/-- The commit point of a bundle that passes both checks. -/
theorem commitPoint_writes {x : Station} {recs : List WriteRecord} {s : State}
    (held : ∀ r ∈ recs, s.locks[regionOf r.cell].holder = some x) (accepted : ∀ r ∈ recs, versionAccepted s r = true) :
    commitPoint x recs s = some (mendAfterWrite recs (if x = self s then completeCommit .applied (recs.foldl writeRecord s)
      else reportChanges x recs (recs.foldl writeRecord s))) := by
  have straps : self (recs.foldl writeRecord s) = self s := by
    clear held accepted
    induction recs generalizing s with
    | nil => rfl
    | cons r rs ih => exact (ih (s := writeRecord s r)).trans rfl
  rw [commitPoint, if_pos (holderCheck_iff.2 held), if_pos (List.all_eq_true.2 accepted)]
  dsimp only
  rw [straps]

/-- The commit point of a bundle whose sender does not hold every region (R68). -/
theorem commitPoint_refuses {x : Station} {recs : List WriteRecord} {s : State}
    (missing : ∃ r ∈ recs, s.locks[regionOf r.cell].holder ≠ some x) :
    commitPoint x recs s = some (if x = self s then completeCommit .refused s else s) := by
  refine if_neg fun check => ?_
  obtain ⟨r, mem, other⟩ := missing
  exact other (holderCheck_iff.1 check r mem)

/-- The last fragment of a bundle, whole in itself or the end of what is staged, comes to the commit point. -/
theorem applyWrite_commits {f : Frame} {w : WriteBody} {recs : List WriteRecord} {s : State} (body : f.body = .write w)
    (last : ((∀ st, s.apply.staging = some st → st.sender ≠ f.head.sender) ∧ w.index = 0 ∧ w.count = 1 ∧ recs = w.records)
      ∨ ∃ st, s.apply.staging = some st ∧ st.sender = f.head.sender ∧ w.index = st.expected ∧ w.count = st.count
        ∧ w.index + 1 = w.count ∧ recs = st.records ++ w.records) :
    applyWrite f.head.sender w (reached f s) = commitPoint f.head.sender recs (setStaging none (reached f s)) := by
  obtain ⟨fresh, first, one, rfl⟩ | ⟨st, its, sender, expected, count, last, rfl⟩ := last
  · rw [applyWrite, staging_fresh fresh]
    dsimp only
    rw [if_pos first]
    exact if_pos (by rw [first, one])
  · rw [applyWrite, staging_kept its sender (by rw [body]; rfl)]
    dsimp only
    rw [if_pos ⟨expected, count⟩]
    exact if_pos last

/-- What a peer's bundle that passes both checks leaves: its records, its reports, its cells off the mend list. -/
theorem commitPoint_peer {x : Station} {recs : List WriteRecord} {s : State} (peer : x ≠ s.straps.number)
    (held : ∀ r ∈ recs, s.locks[regionOf r.cell].holder = some x) (accepted : ∀ r ∈ recs, versionAccepted s r = true)
    : ∃ m c p mend t, commitPoint x recs s
        = some (((((s.withMem m).withCells c).withPort p).withMend mend).withTx { s.tx with mend := t })
      ∧ recs.foldl writeRecord s = (s.withMem m).withCells c
      ∧ SameTickets s.port p
      ∧ (∀ a ∈ recs, flag s.port.watch (regionOf a.cell) = true → Reported (regionOf a.cell) x p)
      ∧ (s.mend.cells.Nodup → ∀ r ∈ recs, r.cell ∉ mend.cells) := by
  have store : ∃ m c, recs.foldl writeRecord s = (s.withMem m).withCells c := by
    clear held accepted peer
    induction recs generalizing s with
    | nil => exact ⟨s.mem, s.cells, rfl⟩
    | cons r rs ih =>
      obtain ⟨m, c, eq⟩ := ih (s := writeRecord s r)
      exact ⟨m, c, eq.trans rfl⟩
  obtain ⟨m, c, written⟩ := store
  obtain ⟨p, eq, same, each⟩ := reportChanges_reports x recs ((s.withMem m).withCells c)
  obtain ⟨p', mend, t, eq', grown, gone⟩ := mendAfterWrite_changes recs (((s.withMem m).withCells c).withPort p)
  refine ⟨m, c, p', mend, t, ?_, written, ⟨grown.tickets.trans same.tickets, grown.phase.trans same.phase,
    grown.watch.trans same.watch⟩, fun a mem watched => (each a mem watched).grown grown, gone⟩
  rw [commitPoint_writes held accepted, if_neg (show x ≠ self s from peer), written, eq, eq']
  rfl

end Sys2Proof.Machine

namespace Sys2Proof

open Sys2Proof.Machine Sys2Proof.Safety

/-- Settles O47: the commit point's two checks, and what it writes. -/
theorem commitPointWritesBundle : Obligations.CommitPointWritesBundle := by
  intro s h w recs f applies last after
  have holder : isHolder s.mship.state = true := applies.2.1.1
  have peer : h.sender ≠ s.straps.number := applies.2.1.2.1
  have commits := applyWrite_commits (f := f) rfl last
  refine ⟨fun missing => ?_, fun good law once listed => ?_⟩
  · refine exec_effect applies (t := setStaging none (reached f s)) ?_ rfl holder
    refine commits.trans ((commitPoint_refuses (s := setStaging none (reached f s)) missing).trans ?_)
    exact congrArg some (if_neg peer)
  · obtain ⟨m, c, p, mend, t, eq, written, same, each, gone⟩ :=
      commitPoint_peer (s := setStaging none (reached f s)) (recs := recs)
      peer (fun r mem => (good r mem).1) (fun r mem => versionAccepted_of (good r mem).2)
    obtain ⟨m', c', written', inside, outside⟩ := writeRecords (s := setStaging none (reached f s)) law.1 once
    have stores := written.symm.trans written'
    obtain rfl : m = m' := congrArg State.mem stores
    obtain rfl : c = c' := congrArg State.cells stores
    refine ⟨_, exec_effect applies (commits.trans eq) rfl holder, fun r mem =>
      ⟨(inside r mem).1, (inside r mem).2.trans (writtenCell_eq _ r)⟩,
      outside, each, gone listed, same.tickets, same.phase, same.watch, rfl, rfl⟩

end Sys2Proof
end

section
/-! The watch set: what replaces it, what reads it, and that no other request does (R135, R136). -/

namespace Sys2Proof.Machine

open Sys2Proof.Safety

/-! ### Requests that do not read the watch set -/

/-- The state with another watch set. -/
def withWatch (w : Flags16) (s : State) : State := s.withPort { s.port with watch := w }

/-- An operation that neither reads nor writes the watch set. -/
def Blind (f : State → State) : Prop := ∀ w s, f (withWatch w s) = withWatch w (f s)

theorem Blind.comp {f g : State → State} (hg : Blind g) (hf : Blind f) : Blind fun s => g (f s) := fun w s =>
  (congrArg g (hf w s)).trans (hg w (f s))

theorem withWatch_ite {p : Prop} [Decidable p] {w : Flags16} {s t s' t' : State} (hs : s' = withWatch w s)
    (ht : t' = withWatch w t) : (if p then s' else t') = withWatch w (if p then s else t) := by
  split <;> assumption

theorem blind_foldl {α : Type} {f : State → α → State} (hf : ∀ a, Blind fun s => f s a) (l : List α) :
    Blind fun s => l.foldl f s := by
  intro w s
  induction l generalizing s with
  | nil => rfl
  | cons a l ih => exact (congrArg (fun u => l.foldl f u) (hf a w s)).trans (ih (f s a))

theorem blind_respond (c : ResultCode) (b : List Byte) : Blind (respond c b) := fun _ _ => rfl

theorem blind_refuse (c : ResultCode) : Blind (refuse c) := fun _ _ => rfl

theorem blind_postNotice (n : Notice) : Blind (postNotice n) := fun _ s =>
  withWatch_ite (p := roomFree s.port = true) rfl rfl

theorem blind_complete (k : TicketNo) (o : Completion) : Blind (complete k o) := by
  intro w s
  unfold complete
  rw [show (withWatch w s).port.tickets = s.port.tickets from rfl]
  cases s.port.tickets[k] with
  | none => rfl
  | some t => exact withWatch_ite rfl rfl

theorem blind_completeAll (ks : List TicketNo) (o : Completion) : Blind (completeAll ks o) :=
  blind_foldl (fun k => blind_complete k o) ks

theorem blind_beginFrom (cs : List CellIx) : Blind (beginFrom cs) := by
  intro w s
  induction cs generalizing s with
  | nil => rfl
  | cons c rest ih =>
    unfold beginFrom
    rw [show firstResponder c (withWatch w s) = firstResponder c s from rfl]
    cases firstResponder c s with
    | some x => rfl
    | none => exact (congrArg (beginFrom rest) (blind_postNotice (.cellLost c) w s)).trans (ih _)

theorem blind_beginMend : Blind beginMend := fun w s =>
  withWatch_ite (p := s.mship.state = .member ∧ s.mend.current = none) (blind_beginFrom s.mend.cells w s) rfl

theorem blind_damageCell (c : CellIx) : Blind (damageCell c) := fun _ s =>
  withWatch_ite (p := s.mship.state = .member ∧ c ∉ s.mend.cells) rfl rfl

theorem blind_verifyForHost (c : CellIx) : Blind (verifyForHost c) := by
  intro w s
  unfold verifyForHost
  rw [show (withWatch w s).cells = s.cells from rfl]
  cases s.cells[c].status with
  | present => exact withWatch_ite (p := verifies c s = true) rfl (blind_damageCell c w s)
  | stale => exact withWatch_ite (p := verifies c s = true) rfl (blind_damageCell c w s)
  | absent => rfl
  | damaged => rfl

theorem blind_completeCommit (o : Completion) : Blind (completeCommit o) := by
  intro w s
  unfold completeCommit
  rw [show (withWatch w s).bundle = s.bundle from rfl]
  cases s.bundle.outgoing with
  | none => rfl
  | some b => exact congrArg (State.withBundle · _) (blind_complete b.ticket o w s)

theorem blind_abandonUnheardFragment : Blind abandonUnheardFragment := by
  intro w s
  unfold abandonUnheardFragment
  rw [show (withWatch w s).tx = s.tx from rfl]
  cases s.tx.slot with
  | none => rfl
  | some sl =>
    dsimp only
    split <;> rfl

theorem blind_leaveBundle : Blind leaveBundle := by
  intro w s
  unfold leaveBundle
  rw [show (withWatch w s).bundle = s.bundle from rfl]
  cases s.bundle.outgoing with
  | none => rfl
  | some b =>
    refine withWatch_ite (p := (!bundleBegun b s) = true) rfl ?_
    dsimp only
    rw [blind_completeCommit .lost w s]
    exact withWatch_ite (p := (completeCommit .lost s).bus.state = .sending) rfl (blind_abandonUnheardFragment w _)

theorem blind_accept (k : TicketNo) (kind : RequestKind) (arg : TicketArg) (link : Option TicketNo) (f : SendFrame) :
    Blind (accept k kind arg link f) := fun _ _ => rfl

/-- The acceptance of a LEAVE once its bundle is dealt with and the QUEUED tickets are cancelled. -/
def beginLeaving (k : TicketNo) (s : State) : State :=
  accept k .leave .none none .leave (stopSilence (((s.withBundle { draft := [], outgoing := none }).withTx
    { s.tx with sendList := [] }).withMship { s.mship with state := .leaving, presence := none }))

theorem blind_acceptLeave (k : TicketNo) : Blind (acceptLeave k) := by
  have cancelled : Blind fun s => completeAll (ticketsIn s.port (· == .queued)) .cancelled s := fun w s =>
    blind_completeAll (ticketsIn s.port (· == .queued)) .cancelled w s
  have began : Blind (beginLeaving k) := fun _ _ => rfl
  exact began.comp (cancelled.comp blind_leaveBundle)

theorem blind_withTicket {f : TicketNo → State → State} (hf : ∀ k, Blind (f k)) : Blind (withTicket f) := by
  intro w s
  unfold withTicket
  rw [show issuable (withWatch w s).port = issuable s.port from rfl]
  cases issuable s.port with
  | none => rfl
  | some k => exact hf k w s

theorem blind_doConfigure (args : List Byte) : Blind (doConfigure args) := by
  intro w s
  unfold doConfigure
  cases configureArg args with
  | none => rfl
  | some a => exact withWatch_ite (p := s.mship.state = .unconfigured) rfl rfl

theorem blind_doReadCells (args : List Byte) : Blind (doReadCells args) := by
  intro w s
  unfold doReadCells
  cases cellsArg args with
  | none => rfl
  | some cs =>
    dsimp only
    have read : cs.foldl (fun s c => verifyForHost c s) (withWatch w s)
        = withWatch w (cs.foldl (fun s c => verifyForHost c s) s) := blind_foldl blind_verifyForHost cs w s
    rw [read, blind_beginMend w]
    rfl

theorem blind_doReadRegion (args : List Byte) : Blind (doReadRegion args) := by
  intro w s
  unfold doReadRegion
  cases regionArg args <;> rfl

theorem blind_doTakeNotice (args : List Byte) : Blind (doTakeNotice args) := by
  intro w s
  unfold doTakeNotice
  rw [show (withWatch w s).port.notices = s.port.notices from rfl]
  cases s.port.notices with
  | nil => rfl
  | cons n rest => cases n <;> rfl

theorem blind_doStageCell (args : List Byte) : Blind (doStageCell args) := by
  intro w s
  unfold doStageCell
  cases stageArg args with
  | none => rfl
  | some a =>
    exact withWatch_ite (p := s.mship.state ≠ .member) rfl (withWatch_ite (p := (!holdsRegion (regionOf a.1) s) = true) rfl
      (withWatch_ite rfl rfl))

theorem blind_doUnstageCell (args : List Byte) : Blind (doUnstageCell args) := by
  intro w s
  unfold doUnstageCell
  cases cellArg args with
  | none => rfl
  | some c => exact withWatch_ite rfl rfl

theorem blind_doJoin (args : List Byte) : Blind (doJoin args) := fun w s =>
  withWatch_ite (p := s.mship.state ≠ .outside) rfl (blind_withTicket (fun _ _ _ => rfl) w s)

theorem blind_doLeave (args : List Byte) : Blind (doLeave args) := fun w s =>
  withWatch_ite (p := s.mship.state ≠ .member) rfl (blind_withTicket blind_acceptLeave w s)

theorem blind_doClaim (args : List Byte) : Blind (doClaim args) := by
  intro w s
  unfold doClaim
  cases regionArg args with
  | none => rfl
  | some r =>
    exact withWatch_ite (p := s.mship.state ≠ .member) rfl
      (withWatch_ite rfl (blind_withTicket (fun _ => blind_accept _ _ _ _ _) w s))

theorem blind_doRelease (args : List Byte) : Blind (doRelease args) := by
  intro w s
  unfold doRelease
  cases regionArg args with
  | none => rfl
  | some r =>
    exact withWatch_ite (p := s.mship.state ≠ .member) rfl (withWatch_ite rfl (withWatch_ite rfl (withWatch_ite rfl
      (blind_withTicket (fun _ => blind_accept _ _ _ _ _) w s))))

theorem blind_withdrawNow (j : TicketNo) : Blind (withdrawNow j) :=
  (blind_respond .ok []).comp ((blind_complete j .withdrawn).comp
    (f := fun s => s.withTx { s.tx with sendList := s.tx.sendList.filter (·.ticket != some j) }) fun _ _ => rfl)

theorem blind_doWithdraw (args : List Byte) : Blind (doWithdraw args) := by
  intro w s
  unfold doWithdraw
  cases regionArg args with
  | none => rfl
  | some r =>
    refine withWatch_ite (p := s.mship.state ≠ .member) rfl ?_
    rw [show liveFor (withWatch w s).port .claim r = liveFor s.port .claim r from rfl]
    cases liveFor s.port .claim r with
    | none => rfl
    | some j =>
      exact withWatch_ite rfl (withWatch_ite (blind_withdrawNow j w s)
        (blind_withTicket (fun _ => blind_accept _ _ _ _ _) w s))

theorem blind_doCommit (args : List Byte) : Blind (doCommit args) := fun w s =>
  withWatch_ite (p := s.mship.state ≠ .member) rfl (withWatch_ite rfl (withWatch_ite rfl
    (blind_withTicket (fun _ _ _ => rfl) w s)))

theorem blind_doSignal (args : List Byte) : Blind (doSignal args) := by
  intro w s
  unfold doSignal
  rw [show self (withWatch w s) = self s from rfl]
  cases signalArg (self s) args with
  | none => rfl
  | some a =>
    exact withWatch_ite (p := s.mship.state ≠ .member) rfl
      (withWatch_ite rfl (blind_withTicket (fun _ => blind_accept _ _ _ _ _) w s))

theorem blind_checkPoint {code : Byte} {f : List Byte → State → State} (hf : ∀ args, Blind (f args)) :
    Blind (checkPoint code f) := by
  intro w s
  unfold checkPoint
  rw [show (withWatch w s).port.phase = s.port.phase from rfl]
  cases s.port.phase with
  | working rq => exact withWatch_ite (hf rq.args w s) rfl
  | idle => rfl
  | holding r => rfl

theorem blind_unassignedPoint : Blind unassignedPoint := by
  intro w s
  unfold unassignedPoint
  rw [show (withWatch w s).port.phase = s.port.phase from rfl]
  cases s.port.phase with
  | working rq => exact withWatch_ite rfl rfl
  | idle => rfl
  | holding r => rfl

theorem blind_fetchPort (n : Nat) : Blind (fetchPort n) := by
  intro w s
  unfold fetchPort
  rw [show (withWatch w s).port.phase = s.port.phase from rfl]
  cases s.port.phase with
  | working rq => rfl
  | idle => rfl
  | holding r => exact withWatch_ite rfl rfl

theorem blind_takeRequest (sdi : List Byte) : Blind (takeRequest sdi) := by
  intro w s
  unfold takeRequest
  rw [show (withWatch w s).port.phase = s.port.phase from rfl]
  cases s.port.phase with
  | working rq => rfl
  | idle => cases frameRequest sdi <;> rfl
  | holding r => rfl

theorem blind_requestPort (sdi : List Byte) : Blind (requestPort sdi) := by
  intro w s
  unfold requestPort
  cases sdi with
  | nil => rfl
  | cons b rest =>
    exact withWatch_ite rfl (withWatch_ite (blind_fetchPort _ w s) (blind_takeRequest (b :: rest) w (setSdo _ s)))

/-- A command that does not read the watch set does under another set what it does under this one. -/
theorem running_blind {f : State → State} (hf : Blind f) {s t : State} {w : Flags16} (run : running f s = .next t) :
    running f (withWatch w s) = .next (withWatch w t) := by
  obtain rfl := Host.Outcome.next.inj run
  refine congrArg Host.Outcome.next ?_
  exact withWatch_ite (p := s.straps.inReset = true) rfl (hf w s)

/-- SET_WATCH's set: region r by bit r mod 8 of byte r / 8 (R135). -/
theorem flag_watchArg (a b : Byte) (r : Region) :
    flag (b ++ a) r = if r.val < 8 then a.getLsbD r.val else b.getLsbD (r.val - 8) := by
  rw [flag, BitVec.getLsbD_append]

/-- The set in force read back as SET_WATCH's two bytes. -/
theorem bytes_watchArg (a b : Byte) :
    (b ++ a : BitVec (8 + 8)).extractLsb' 0 8 = a ∧ (b ++ a : BitVec (8 + 8)).extractLsb' 8 8 = b := by
  constructor
  · refine BitVec.eq_of_getLsbD_eq fun i hi => ?_
    rw [BitVec.getLsbD_extractLsb', BitVec.getLsbD_append, decide_eq_true hi, Bool.true_and, if_pos (by omega), Nat.zero_add]
  · refine BitVec.eq_of_getLsbD_eq fun i hi => ?_
    rw [BitVec.getLsbD_extractLsb', BitVec.getLsbD_append, decide_eq_true hi, Bool.true_and, if_neg (by omega),
      Nat.add_sub_cancel_left]

end Sys2Proof.Machine

namespace Sys2Proof

open Sys2Proof.Machine Sys2Proof.Safety

/-- Settles O22: SET_WATCH itself, what may move the set, what reads it, and the reports of a written bundle. -/
theorem setWatchReplacesSet : Obligations.SetWatchReplacesSet := by
  refine ⟨fun s t c reset run => ?_, fun s a b hand => ⟨b ++ a, ?_, flag_watchArg a b⟩, fun s args out idle other short =>
    ?_,
    fun s t c plain released other run => ?_, fun s t c r free unwatched run => ?_,
    fun s t h w recs r applies last good touched watched run => ?_, fun s t c set request run => ?_⟩
  · obtain rfl | ⟨n, r, rfl⟩ := reset
    · obtain rfl := Host.Outcome.next.inj run
      rfl
    · obtain rfl := Host.Outcome.next.inj run
      rfl
  · obtain ⟨low, high⟩ := bytes_watchArg a b
    refine (exec_setWatch hand).trans (congrArg Host.Outcome.next ?_)
    show respond .ok [(b ++ a : BitVec 16).extractLsb' 0 8, (b ++ a : BitVec 16).extractLsb' 8 8] _ = _
    rw [low, high]
    rfl
  · have length : (BitVec.ofNat 8 args.length).toNat = args.length := toNat_ofNat_byte short
    refine ⟨_, (requestTakenWhenIdle.1 s 0x07 _ out (by decide) (by decide)).2.1
      (.inr (.inr ⟨_, _, rfl, .inr (.inr ⟨2, rfl, ?_⟩)⟩))
      idle⟩
    rw [length]
    exact other
  · obtain ⟨u, next, moves⟩ := exec_moves (a := ⟨True, True, False⟩) trivial ⟨plain, released⟩ (fun _ => trivial)
      (fun ⟨args, its⟩ => other args its) (s := s)
    obtain rfl := Host.Outcome.next.inj (next.symm.trans run)
    exact moves.watch_kept id
  · by_cases plain : NoReset c
    · obtain ⟨u, next, moves⟩ := exec_moves (a := ⟨True, True, False⟩) trivial plain (fun _ => trivial)
        (fun ⟨args, its⟩ => free _ its) (s := s)
      obtain rfl := Host.Outcome.next.inj (next.symm.trans run)
      exact moves.changed_of_unwatched id unwatched
    · have emptied : t.port.notices = [] := by
        rw [NoReset, not_and_or, not_not, not_forall] at plain
        obtain rfl | ⟨n, more⟩ := plain
        · obtain rfl := Host.Outcome.next.inj run
          rfl
        · rw [not_forall] at more
          obtain ⟨r, its⟩ := more
          obtain rfl := not_not.1 its
          obtain rfl := Host.Outcome.next.inj run
          rfl
      rw [emptied]
      nofun
  · have peer : h.sender ≠ s.straps.number := applies.2.1.2.1
    have commits := applyWrite_commits (f := { head := h, body := .write w }) rfl last
    obtain ⟨m, c, p, mend, u, eq, -, -, each, -⟩ := commitPoint_peer
      (s := setStaging none (reached { head := h, body := .write w } s)) (recs := recs)
      peer (fun a mem => (good a mem).1) (fun a mem => versionAccepted_of (good a mem).2)
    obtain rfl := Host.Outcome.next.inj ((exec_effect applies (commits.trans eq) rfl applies.2.1.1).symm.trans run)
    obtain ⟨a, mem, rfl⟩ := touched
    exact each a mem watched
  · obtain listed | ⟨k, rfl⟩ | ⟨k, rfl⟩ | ⟨b, rfl⟩ := request
    · simp only [List.mem_cons, List.not_mem_nil, or_false] at listed
      obtain rfl | rfl | rfl | rfl | rfl | rfl | rfl | rfl | rfl | rfl | rfl | rfl | rfl | rfl | rfl | rfl | rfl := listed
      · exact running_blind (blind_checkPoint fun _ _ _ => rfl) run
      · exact running_blind (blind_checkPoint blind_doConfigure) run
      · exact running_blind (blind_checkPoint blind_doReadCells) run
      · exact running_blind (blind_checkPoint blind_doStageCell) run
      · exact running_blind (blind_checkPoint blind_doUnstageCell) run
      · exact running_blind (blind_checkPoint fun _ _ _ => rfl) run
      · exact running_blind (blind_checkPoint blind_doTakeNotice) run
      · exact running_blind (blind_checkPoint blind_doReadRegion) run
      · exact running_blind (blind_checkPoint fun _ _ _ => rfl) run
      · exact running_blind (blind_checkPoint blind_doJoin) run
      · exact running_blind (blind_checkPoint blind_doLeave) run
      · exact running_blind (blind_checkPoint blind_doClaim) run
      · exact running_blind (blind_checkPoint blind_doRelease) run
      · exact running_blind (blind_checkPoint blind_doWithdraw) run
      · exact running_blind (blind_checkPoint blind_doCommit) run
      · exact running_blind (blind_checkPoint blind_doSignal) run
      · exact running_blind blind_unassignedPoint run
    · exact running_blind (f := pollPort k) (fun _ _ => rfl) run
    · exact running_blind (blind_fetchPort k) run
    · exact running_blind (blind_requestPort b) run

end Sys2Proof
end

section
/-! Departure: what the one step that gives up the group state leaves, and the frames that find a station out of step. -/

namespace Sys2Proof.Machine

open Sys2Proof.Safety

/-! ### The departure, block by block (R94) -/

/-- The notices of a departure: LEFT_GROUP at the tail, or the mark set. -/
theorem departNotices_last (r : DepartReason) (s : State) :
    (departNotices r s).port.notices.getLast? = some (.leftGroup r) ∨ (departNotices r s).port.noticesDropped = true := by
  unfold departNotices
  generalize completeAll _ _ s = u
  unfold postNotice
  split
  · exact .inl List.getLast?_concat
  · exact .inr rfl

theorem departCell_eq (c : CellRec) :
    departCell c = { c with status := if c.status = .present then .stale else c.status, fresh := false } := by
  unfold departCell
  split
  · rename_i present
    rw [present]
    rfl
  all_goals
    rename_i status
    rw [if_neg (by rw [status]; nofun)]

/-- What the notices of a departure leave of the port: every live ticket DONE with its LOST completion, and the rest. -/
theorem departNotices_completes {s : State} (r : DepartReason) (law : PortLaw s) :
    (∀ (k : TicketNo) u, s.port.tickets[k] = some u → (departNotices r s).port.tickets[k] = some { u with state := .done }
        ∧ (u.state ≠ .done → .completion k u.kind .lost ∈ (departNotices r s).port.notices))
      ∧ (∀ k : TicketNo, s.port.tickets[k] = none → (departNotices r s).port.tickets[k] = none)
      ∧ s.port.notices <+: (departNotices r s).port.notices ∧ (departNotices r s).port.phase = s.port.phase
      ∧ (departNotices r s).port.watch = s.port.watch ∧ (departNotices r s).port.order = s.port.order := by
  obtain ⟨-, -, named, -⟩ := law
  unfold departNotices
  have grown := postNotice_grown (.leftGroup r) (completeAll (ticketsIn s.port (· != .done)) .lost s)
  obtain ⟨order, phase, watch, notices, -⟩ := completeAll_keeps (ticketsIn s.port (· != .done)) .lost s
  refine ⟨fun k u used => ?_, fun k free => ?_, notices.trans grown.notices, grown.phase.trans phase,
    grown.watch.trans watch, grown.order.trans order⟩
  · have listed : u.state ≠ .done → k ∈ ticketsIn s.port (· != .done) := fun live =>
      mem_ticketsIn ((named k).2 (by rw [used]; nofun)) used (bne_iff_ne.2 live)
    rw [grown.tickets]
    refine ⟨?_, fun live => grown.notices.subset (completeAll_ticket_live .lost (listed live) used live).2⟩
    by_cases done : u.state = .done
    · rw [completeAll_ticket_done _ _ used done, ← done]
    · exact (completeAll_ticket_live .lost (listed done) used done).1
  · rw [grown.tickets, completeAll_ticket_other .lost fun mem => ?_]
    · exact free
    · obtain ⟨-, used⟩ := List.mem_filter.1 mem
      rw [free] at used
      cases used

/-- A departure gives up the group state (R94). -/
theorem depart_departed {s : State} (r : DepartReason) (law : PortLaw s) (listening : s.mship.listening = true) :
    Departed s (depart r s) := by
  obtain ⟨used, free, notices, phase, watch, order⟩ := departNotices_completes r law
  rw [depart_eq]
  generalize (departNotices r s).port = p at used free notices phase watch order
  exact ⟨rfl, fun c => (getElem_map_fin _ _ _).trans (departCell_eq _), rfl, fun x => getElem_replicate_fin _ _,
    fun x => getElem_replicate_fin _ _, fun x => getElem_replicate_fin _ _, rfl, rfl, listening, rfl, rfl, rfl, rfl, rfl,
      used,
    free, notices, phase, watch, order, rfl, rfl, rfl, rfl, rfl, rfl, rfl, rfl, rfl⟩

theorem depart_state (r : DepartReason) (s : State) :
    (depart r s).mship.state = if rejoins r s.mship = true then .joinSent else .outside := by
  rw [depart_eq]
  rfl

theorem depart_sendList (r : DepartReason) (s : State) :
    (depart r s).tx.sendList = if rejoins r s.mship = true then [{ ticket := none, frame := .join }] else [] := by
  rw [depart_eq]
  rfl

theorem depart_last (r : DepartReason) (s : State) :
    (depart r s).port.notices.getLast? = some (.leftGroup r) ∨ (depart r s).port.noticesDropped = true := by
  rw [depart_eq]
  exact departNotices_last r s

theorem depart_bus (r : DepartReason) (s : State) : (depart r s).bus = s.bus := by
  rw [depart_eq]

theorem depart_access (r : DepartReason) (s : State) : (depart r s).access = s.access := by
  rw [depart_eq]

theorem rejoins_other {r : DepartReason} (m : Membership) (other : r ≠ .outOfStep) : rejoins r m = false := by
  rw [rejoins, beq_eq_false_iff_ne.2 other]
  rfl

/-- A departure for any reason but OUT_OF_STEP goes to OUTSIDE with the send list empty (R94, R96). -/
theorem depart_outside {r : DepartReason} {s : State} (other : r ≠ .outOfStep) (b : BusInterface) :
    ((depart r s).withBus b).mship.state = .outside ∧ ((depart r s).withBus b).tx.sendList = []
      ∧ (((depart r s).withBus b).port.notices.getLast? = some (.leftGroup r)
        ∨ ((depart r s).withBus b).port.noticesDropped = true)
      ∧ ((depart r s).withBus b).access = s.access := by
  refine ⟨(depart_state r s).trans ?_, (depart_sendList r s).trans ?_, depart_last r s, depart_access r s⟩
  · rw [rejoins_other _ other]
    rfl
  · rw [rejoins_other _ other]
    rfl

theorem rejoins_iff {m : Membership} (holder : isHolder m.state = true) :
    rejoins .outOfStep m = true ↔ m.autoRejoin = some true ∧ m.state ≠ .leaving := by
  cases state : m.state <;> simp_all [rejoins, isHolder]

/-! ### Frames that make a station depart (R29, R33) -/

theorem handleAtHolder_dropped {f : Frame} {s : State} (group : isForeign f s = false)
    (dropped : resolveDoubt f s = .dropped) :
    handleAtHolder f s = (depart .dropped s, false) := by
  rw [handleAtHolder, group, dropped]
  rfl

theorem handleAtHolder_doubted {f : Frame} {s : State} (group : isForeign f s = false)
    (out : resolveDoubt f s = .outOfStep) :
    handleAtHolder f s = (depart .outOfStep s, false) := by
  rw [handleAtHolder, group, out]
  rfl

theorem handleAtHolder_gap {f : Frame} {s : State} (group : isForeign f s = false) (free : resolveDoubt f s = .goOn)
    (gap : checkSeq f (setDoubt .clear s) = .outOfStep) : handleAtHolder f s
      = (depart .outOfStep (setDoubt .clear s), false) := by
  rw [handleAtHolder, group, free]
  dsimp only
  rw [gap]
  rfl

theorem handleAtHolder_failed {f : Frame} {s : State} (group : isForeign f s = false) (free : resolveDoubt f s = .goOn)
    (next : checkSeq f (setDoubt .clear s) = .applied)
    (failed : takeFrame f none (signOfLife f.head.sender (setDoubt .clear s)) = none) :
    handleAtHolder f s = (depart .outOfStep (setDoubt .clear s), false) := by
  rw [handleAtHolder, group, free]
  dsimp only
  rw [next]
  dsimp only
  rw [failed]
  rfl

/-- A frame that makes its hearer depart: the departure from what was heard, the position not driven. -/
theorem exec_departs {s u : State} {f : Frame} {r : DepartReason} (h : Hears s f) (holder : isHolder s.mship.state = true)
    (handled : handleAtHolder f (heardState f s) = (depart r u, false)) (bus : u.bus = (hearing f s).bus) :
    exec (frameCommand f) s = .next ((depart r u).withBus (busAfter f false s.bus)) :=
  exec_handled h holder handled ((depart_bus r u).trans bus)

/-- An applied frame of a peer, whatever station state its effect leaves: the ack follows that state (R22). -/
theorem exec_effect_acked {s t : State} {f : Frame} {b : Bool} (h : Applies s f)
    (made : effect f none (lockEffect f (reached f s)) = some t) (bus : t.bus = (hearing f s).bus)
    (acked : isHolder t.mship.state = b) : exec (frameCommand f) s = .next (t.withBus (busAfter f b s.bus)) := by
  rw [exec_applies h, show ({ taken f s with bus := (hearing f s).bus } : State) = reached f s from rfl, made]
  dsimp only
  rw [acked, enterAckWindow_heard b bus]

theorem filter_fresh {x : Station} {o : Option Staging} (fresh : ∀ st, o = some st → st.sender ≠ x) :
    o.filter (·.sender == x) = none := by
  cases o with
  | none => rfl
  | some st => exact Option.filter_some_neg (beq_eq_false_iff_ne.2 (fresh st rfl))

theorem filter_kept {x : Station} {o : Option Staging} {st : Staging} (its : o = some st) (sender : st.sender = x) :
    o.filter (·.sender == x) = some st := by
  rw [its]
  exact Option.filter_some_pos (p := fun st : Staging => st.sender == x) (beq_iff_eq.2 sender)

/-- The staging step before a fragment: a staging of another sender goes, and nothing that the commit point checks. -/
theorem stagingStep_write {f : Frame} {s : State} (keeps : keepsStaging f.body = true) :
    (stagingStep f s).apply.staging = s.apply.staging.filter (·.sender == f.head.sender)
      ∧ (stagingStep f s).locks = s.locks ∧ (stagingStep f s).cells = s.cells ∧ (stagingStep f s).mship = s.mship := by
  unfold stagingStep
  split
  · rename_i empty
    rw [empty]
    exact ⟨rfl, rfl, rfl, rfl⟩
  · rename_i st its
    rw [its]
    by_cases same : st.sender = f.head.sender
    · rw [if_pos ⟨same, keeps⟩, its]
      refine ⟨?_, rfl, rfl, rfl⟩
      exact (filter_kept rfl same).symm
    · rw [if_neg fun h => same h.1, filter_fresh (x := f.head.sender) (o := some st) fun st' e => Option.some.inj e ▸ same]
      dsimp only
      split
      · unfold breakBundle
        split
        · obtain ⟨t, ht⟩ := abandonUnheardFragment_tx (completeCommit .refused (setStaging none s))
          obtain ⟨p, bundle, hp⟩ : ∃ p bundle, completeCommit .refused (setStaging none s)
              = ((setStaging none s).withPort p).withBundle bundle := by
            unfold completeCommit
            split
            · obtain ⟨p, hp⟩ := complete_port (‹Outgoing›).ticket .refused (setStaging none s)
              rw [hp]
              exact ⟨p, _, rfl⟩
            · exact ⟨s.port, s.bundle, rfl⟩
          rw [ht, hp]
          exact ⟨rfl, rfl, rfl, rfl⟩
        · exact ⟨rfl, rfl, rfl, rfl⟩
      · exact ⟨rfl, rfl, rfl, rfl⟩

theorem versionAccepted_not {s : State} {r : WriteRecord} (member : s.mship.state = .member)
    (present : s.cells[r.cell].status = .present) (carried : r.version ≠ 0)
    (next : r.version ≠ succVersion s.cells[r.cell].version) :
    versionAccepted s r = false := by
  rw [versionAccepted, member, present]
  simpa [-Fin.getElem_fin] using ⟨next, carried⟩

/-- Where a fragment's staging step starts: the sender's sequence recorded, the rest as heard. -/
theorem recordSeq_keeps (x : Station) (q : Seq) (s : State) : (recordSeq x q s).apply = s.apply
    ∧ (recordSeq x q s).locks = s.locks ∧ (recordSeq x q s).cells = s.cells
      ∧ (recordSeq x q s).mship.state = s.mship.state := by
  unfold recordSeq
  split <;> exact ⟨rfl, rfl, rfl, rfl⟩

/-- What finds the effect of a fragment out of step: it is not the one expected (R65), or its bundle fails a version (R69). -/
theorem applyWrite_fails {x : Station} {w : WriteBody} {s : State}
    (h : (s.apply.staging = none ∧ w.index ≠ 0)
      ∨ (∃ st, s.apply.staging = some st ∧ (w.index ≠ st.expected ∨ w.count ≠ st.count))
      ∨ (s.apply.staging = none ∧ w.index = 0 ∧ w.count = 1 ∧ (∀ r ∈ w.records, s.locks[regionOf r.cell].holder = some x)
        ∧ ∃ r ∈ w.records, versionAccepted s r = false)) : applyWrite x w s = none := by
  obtain ⟨empty, later⟩ | ⟨st, its, other⟩ | ⟨empty, first, one, held, r, mem, failed⟩ := h
  · rw [applyWrite, empty]
    dsimp only
    rw [if_neg later]
  · rw [applyWrite, its]
    dsimp only
    rw [if_neg fun h => other.elim (fun n => n h.1) fun n => n h.2]
  · rw [applyWrite, empty]
    dsimp only
    rw [if_pos first]
    refine (if_pos (by rw [first, one])).trans ((if_pos (holderCheck_iff.2 held)).trans (if_neg fun all => ?_))
    have its : versionAccepted s r = true := List.all_eq_true.1 all r mem
    rw [failed] at its
    cases its

end Sys2Proof.Machine

namespace Sys2Proof

open Sys2Proof.Machine Sys2Proof.Safety

/-- Settles O42: the DROP applied, or found while a sequence is awaited. -/
theorem dropOfThisStationDeparts : Obligations.DropOfThisStationDeparts := by
  intro s f reason hears holder body peer member own law next
  have listed : s.mship.table[f.head.sender].state ≠ .absent := by
    rw [member]
    nofun
  by_cases known : ∃ x q, s.apply.doubt = .known x q
  · obtain ⟨x, q, doubt⟩ := known
    have dropped : resolveDoubt f (heardState f s) = .dropped := by
      unfold resolveDoubt
      rw [show (heardState f s).apply.doubt = .known x q from doubt]
      refine if_pos ?_
      rw [dropsSelf, body, Bool.and_eq_true]
      exact ⟨beq_iff_eq.2 rfl, (isMember_iff _ _).2 member⟩
    obtain ⟨outside, emptied, last, access⟩ :=
      depart_outside (r := .dropped) (s := heardState f s) (by decide) (busAfter f false s.bus)
    exact ⟨_, exec_departs hears holder
      (handleAtHolder_dropped (isForeign_of_sender (s := heardState f s) peer listed) dropped) rfl,
      depart_departed (s := heardState f s) .dropped law rfl, outside, emptied, last, rfl, access⟩
  · have applies : Applies s f :=
      ⟨hears, ⟨holder, peer, listed, fun x q h => known ⟨x, q, h⟩⟩, next.resolve_right known, own⟩
    have sender : isMember (reached f s).mship.table f.head.sender = true :=
      (isMember_reached f s _).trans ((isMember_iff _ _).2 member)
    have made : effect f none (lockEffect f (reached f s)) = some (depart .dropped (reached f s)) := by
      have locks : lockEffect f (reached f s) = reached f s := by
        rw [lockEffect, body]
        exact if_neg fun h => h.2.1 rfl
      rw [locks, effect, body]
      exact congrArg some ((if_pos sender).trans (if_pos rfl))
    obtain ⟨outside, emptied, last, access⟩ :=
      depart_outside (r := .dropped) (s := reached f s) (by decide) (busAfter f false s.bus)
    have out : isHolder (depart .dropped (reached f s)).mship.state = false := by
      rw [show (depart .dropped (reached f s)).mship.state = .outside from outside]
      rfl
    exact ⟨_, exec_effect_acked applies made (depart_bus _ _) out, depart_departed (s := reached f s) .dropped law rfl,
      outside,
      emptied, last, rfl, access⟩

/-- Settles O43: the four causes, and what they come to. -/
theorem outOfStepDeparts : Obligations.OutOfStepDeparts := by
  intro s f hears holder peer law e follows fresh cause rejoins
  -- whatever the cause, the departure is from what was heard, the doubt resolved or not
  have departs : ∀ a, handleAtHolder f (heardState f s) = (depart .outOfStep ((heardState f s).withApply a), false) →
      ∃ t, exec (frameCommand f) s = .next t ∧ Departed s t
        ∧ (rejoins → t.mship.state = .joinSent ∧ t.tx.sendList = [{ ticket := none, frame := .join }])
        ∧ (¬ rejoins → t.mship.state = .outside ∧ t.tx.sendList = [])
        ∧ (t.port.notices.getLast? = some (.leftGroup .outOfStep) ∨ t.port.noticesDropped = true)
        ∧ t.bus = busAfter f false s.bus
          ∧ t.access = { s.access with reference := some f.head.sender } := fun a handled => by
    have its : Machine.rejoins .outOfStep ((heardState f s).withApply a).mship = true ↔ rejoins :=
      rejoins_iff (m := (heardState f s).mship) holder
    refine ⟨_, exec_departs hears holder handled rfl, depart_departed (s := (heardState f s).withApply a) .outOfStep law rfl,
      fun yes => ⟨(depart_state _ _).trans (if_pos (its.2 yes)), (depart_sendList _ _).trans (if_pos (its.2 yes))⟩,
      fun no => ⟨(depart_state _ _).trans (if_neg (mt its.1 no)), (depart_sendList _ _).trans (if_neg (mt its.1 no))⟩,
      depart_last _ _, rfl, depart_access _ ((heardState f s).withApply a)⟩
  have group : e.state ≠ .absent → isForeign f (heardState f s) = false := isForeign_of_sender (s := heardState f s) peer
  have free : (∀ x q, s.apply.doubt ≠ .known x q) → resolveDoubt f (heardState f s) = .goOn :=
    resolveDoubt_free (s := heardState f s)
  -- a fragment whose effect fails
  have failed : ∀ w, f.body = .write w → follows →
      applyWrite f.head.sender w (stagingStep f (recordSeq f.head.sender f.head.seq
        (signOfLife f.head.sender (setDoubt .clear (heardState f s))))) = none →
      handleAtHolder f (heardState f s) = (depart .outOfStep (setDoubt .clear (heardState f s)), false) :=
    fun w body ⟨clear, listed, next⟩ none => by
      refine handleAtHolder_failed (group listed) (free clear)
        (checkSeq_next (s := setDoubt .clear (heardState f s)) next) ?_
      rw [takeFrame, lockEffect_none _ (.inr (.inl ⟨w, body⟩)), effect, body]
      exact none
  obtain ⟨clear, listed, body, ahead, last⟩ | ⟨x, q, known, unawaited, inGroup, other⟩ | ⟨goes, w, body, wrong⟩
      | ⟨goes, member, w, body, new, first, one, held, r, mem, present, carried, next⟩ := cause
  · exact departs _ (handleAtHolder_gap (group listed) (free clear)
      (checkSeq_other (s := setDoubt .clear (heardState f s)) body ahead last))
  · refine departs (heardState f s).apply (handleAtHolder_doubted ?_ ?_)
    · obtain listed | ⟨b, join⟩ := inGroup
      · exact group listed
      · exact isForeign_of_join (s := heardState f s) peer join
    · unfold resolveDoubt
      rw [show (heardState f s).apply.doubt = .known x q from known]
      dsimp only
      rw [if_neg fun h => ?_, if_neg fun h => ?_]
      · exact unawaited.elim (fun n => n h.1) fun n => n h.2
      · unfold dropsSelf at h
        split at h
        · rename_i t r drop
          obtain ⟨own, sender⟩ := Bool.and_eq_true_iff.1 h
          obtain rfl := beq_iff_eq.1 own
          exact other r drop ((isMember_iff _ _).1 sender)
        · cases h
  · obtain ⟨apply, -, -, -⟩ := recordSeq_keeps f.head.sender f.head.seq
      (signOfLife f.head.sender (setDoubt .clear (heardState f s)))
    obtain ⟨staging, -, -, -⟩ := stagingStep_write (f := f) (s := recordSeq f.head.sender f.head.seq
      (signOfLife f.head.sender (setDoubt .clear (heardState f s)))) (by rw [body]; rfl)
    rw [apply] at staging
    refine departs _ (failed w body goes (applyWrite_fails ?_))
    rw [staging]
    obtain ⟨new, later⟩ | ⟨st, its, sender, other⟩ := wrong
    · exact .inl ⟨filter_fresh new, later⟩
    · exact .inr (.inl ⟨st, filter_kept its sender, other⟩)
  · obtain ⟨apply, locks, cells, state⟩ := recordSeq_keeps f.head.sender f.head.seq
      (signOfLife f.head.sender (setDoubt .clear (heardState f s)))
    obtain ⟨staging, locks', cells', mship'⟩ := stagingStep_write (f := f) (s := recordSeq f.head.sender f.head.seq
      (signOfLife f.head.sender (setDoubt .clear (heardState f s)))) (by rw [body]; rfl)
    rw [apply] at staging
    refine departs _ (failed w body goes
      (applyWrite_fails (.inr (.inr ⟨staging.trans (filter_fresh new), first, one, ?_, r, mem, ?_⟩))))
    · rw [locks', locks]
      exact held
    · refine versionAccepted_not ?_ ?_ carried ?_
      · rw [mship', state]
        exact member
      · rw [cells', cells]
        exact present
      · rw [cells', cells]
        exact next

end Sys2Proof
end

section
/-! The judgement at an ack window's end: settlements, repeats, isolation, and the own JOIN's. -/

namespace Sys2Proof.Machine

open Sys2Proof.Safety

/-! ### The positions missing (R168) -/

theorem missing_none {required map : Flags16} :
    required &&& ~~~map = 0 ↔ ∀ x, flag required x = true → flag map x = true := by
  rw [flags_eq_zero_iff]
  refine forall_congr' fun x => ?_
  rw [flag_and, flag_not]
  cases flag required x <;> cases flag map x <;> decide

theorem acked_some {required map : Flags16} :
    required &&& map ≠ 0 ↔ ∃ x, flag required x = true ∧ flag map x = true := by
  rw [Ne, flags_eq_zero_iff, not_forall]
  refine exists_congr fun x => ?_
  rw [flag_and, Bool.not_eq_false, Bool.and_eq_true]

theorem exhausted_iff {sl : Slot} {s : State} {limit : Nat} (its : s.mship.repeatLimit = some limit) :
    exhausted sl s = true ↔ limit ≤ sl.repeats := by
  rw [exhausted, its]
  exact decide_eq_true_iff

theorem judgeRequired_settles {sl : Slot} {map : Flags16} {s : State}
    (all : ∀ x, flag sl.required x = true → flag map x = true) :
    judgeRequired sl map s = settle sl 0 map s := if_pos (missing_none.2 all)

theorem judgeRequired_repeats {sl : Slot} {map : Flags16} {s : State} {limit : Nat} (its : s.mship.repeatLimit = some limit)
    (some : ∃ x, flag sl.required x = true ∧ flag map x = false) (left : sl.repeats < limit) :
    judgeRequired sl map s = repeatDue sl s := by
  obtain ⟨x, required, silent⟩ := some
  refine (if_neg fun none => ?_).trans (if_pos ?_)
  · rw [missing_none.1 none x required] at silent
    cases silent
  · rw [Bool.not_eq_true', Bool.eq_false_iff, Ne, exhausted_iff its]
    exact Nat.not_le.2 left

theorem judgeRequired_short {sl : Slot} {map : Flags16} {s : State} {limit : Nat} (its : s.mship.repeatLimit = some limit)
    (some : ∃ x, flag sl.required x = true ∧ flag map x = false) (up : limit ≤ sl.repeats)
    (acked : ∃ x, flag sl.required x = true ∧ flag map x = true) :
    judgeRequired sl map s = settle sl (sl.required &&& ~~~map) map s := by
  obtain ⟨x, required, silent⟩ := some
  refine (if_neg fun none => ?_).trans ((if_neg ?_).trans (if_pos (acked_some.2 acked)))
  · rw [missing_none.1 none x required] at silent
    cases silent
  · rw [(exhausted_iff its).2 up]
    decide

theorem judgeRequired_isolates {sl : Slot} {map : Flags16} {s : State} {limit : Nat} (its : s.mship.repeatLimit = some limit)
    (some : ∃ x, flag sl.required x = true) (up : limit ≤ sl.repeats)
    (quiet : ¬ ∃ x, flag sl.required x = true ∧ flag map x = true) :
    judgeRequired sl map s = depart .isolated (setSlot none s) := by
  obtain ⟨x, required⟩ := some
  refine (if_neg fun all => ?_).trans ((if_neg ?_).trans (if_neg fun acked => quiet (acked_some.1 acked)))
  · exact quiet ⟨x, required, missing_none.1 all x required⟩
  · rw [(exhausted_iff its).2 up]
    decide

/-! ### Settlement DROPs (R163, R169) -/

/-- The settlement DROP of a missing station. -/
def noAckDrop (x : Station) : DropEntry := { target := x, reason := .noAck, cls := .settlement }

theorem queueSettlementDrop_changes {x : Station} {s : State}
    (law : ∀ d ∈ s.tx.drops, d.cls = .settlement → d.reason = .noAck) :
    ∃ ds, queueSettlementDrop s x = s.withTx { s.tx with drops := ds } ∧ noAckDrop x ∈ ds
      ∧ (∀ d, d.target ≠ x → (d ∈ ds ↔ d ∈ s.tx.drops)) ∧ ∀ d ∈ ds, d.cls = .settlement → d.reason = .noAck := by
  unfold queueSettlementDrop
  split
  · rename_i standing
    obtain ⟨d, mem, its⟩ := List.any_eq_true.1 standing
    obtain ⟨target, cls⟩ := Bool.and_eq_true_iff.1 its
    have target := beq_iff_eq.1 target
    have cls := beq_iff_eq.1 cls
    refine ⟨s.tx.drops, rfl, ?_, fun _ _ => Iff.rfl, law⟩
    have reason := law d mem cls
    obtain ⟨t, r, c⟩ := d
    obtain rfl : t = x := target
    obtain rfl : c = .settlement := cls
    obtain rfl : r = .noAck := reason
    exact mem
  · refine ⟨_, rfl, List.mem_append_right _ (List.mem_singleton.2 rfl), fun d other => ?_, fun d mem cls => ?_⟩
    · rw [List.mem_append, List.mem_filter, List.mem_singleton]
      refine ⟨fun h => h.elim (·.1) ?_, fun h => .inl ⟨h, bne_iff_ne.2 other⟩⟩
      rintro rfl
      exact absurd rfl other
    · obtain kept | new := List.mem_append.1 mem
      · exact law d (List.mem_filter.1 kept).1 cls
      · rw [List.mem_singleton.1 new]

theorem foldl_queueSettlementDrop {l : List Station} {s : State}
    (law : ∀ d ∈ s.tx.drops, d.cls = .settlement → d.reason = .noAck) :
    ∃ ds, l.foldl queueSettlementDrop s = s.withTx { s.tx with drops := ds } ∧ (∀ x ∈ l, noAckDrop x ∈ ds)
      ∧ ∀ d, d.target ∉ l → (d ∈ ds ↔ d ∈ s.tx.drops) := by
  induction l generalizing s with
  | nil => exact ⟨s.tx.drops, rfl, nofun, fun _ _ => Iff.rfl⟩
  | cons x l ih =>
    obtain ⟨ds, eq, named, kept, law'⟩ := queueSettlementDrop_changes (x := x) law
    obtain ⟨ds', eq', named', kept'⟩ := ih (s := queueSettlementDrop s x) (by rw [eq]; exact law')
    rw [eq] at kept'
    refine ⟨ds', ?_, fun y mem => ?_, fun d other => ?_⟩
    · rw [List.foldl_cons, eq', eq]
      rfl
    · by_cases later : y ∈ l
      · exact named' y later
      · obtain rfl := (List.mem_cons.1 mem).resolve_right later
        exact (kept' (noAckDrop y) later).2 named
    · rw [List.mem_cons, not_or] at other
      exact (kept' d other.2).trans (kept d other.1)

theorem queueSettlementDrops_none (s : State) : queueSettlementDrops 0 s = s := by
  have none : stations.filter (flag 0) = [] := List.filter_eq_nil_iff.2 fun x _ => by
    rw [show flag 0 x = false from flag_zero x]
    nofun
  rw [queueSettlementDrops, none]
  rfl

/-! ### Settlements (R172) -/

/-- A settlement of anything but a LEAVE, with every position driven: the slot emptied and what it does to its ticket. -/
theorem settle_all {sl : Slot} {map : Flags16} {s : State} (other : sl.frame.body ≠ .leave) :
    settle sl 0 map s = settleEffects sl map (setSlot none s) := by
  refine (if_neg other).trans ?_
  rw [queueSettlementDrops_none]
  exact ite_self _

/-- The kinds whose settlement completes no ticket and moves no block. -/
def SettlesAlone (b : Body) : Prop :=
  b = .presence ∨ (∃ r, b = .yield r) ∨ (∃ x r, b = .drop x r) ∨ (∃ x im, b = .snapState x im)
    ∨ (∃ x g rs, b = .snapCells x g rs) ∨ ∃ x c a, b = .mendReply x c a

theorem settleEffects_alone {sl : Slot} (map : Flags16) (s : State) (alone : SettlesAlone sl.frame.body) :
    settleEffects sl map s = s := by
  unfold settleEffects
  obtain h | ⟨r, h⟩ | ⟨x, r, h⟩ | ⟨x, im, h⟩ | ⟨x, g, rs, h⟩ | ⟨x, c, a, h⟩ := alone <;> rw [h]

theorem SettlesAlone.not_leave {b : Body} (alone : SettlesAlone b) : b ≠ .leave := by
  rintro rfl
  obtain h | ⟨r, h⟩ | ⟨x, r, h⟩ | ⟨x, im, h⟩ | ⟨x, g, rs, h⟩ | ⟨x, c, a, h⟩ := alone <;> cases h

/-! ### The window's end after an own frame -/

/-- What no ack window's end touches. -/
theorem windowEnded_keeps (map : Flags16) (s : State) :
    (windowEnded map s).mship.state = s.mship.state ∧ (windowEnded map s).mship.repeatLimit = s.mship.repeatLimit
      ∧ (windowEnded map s).mship.listening = s.mship.listening ∧ (windowEnded map s).tx.slot = s.tx.slot
      ∧ (windowEnded map s).port = s.port := by
  unfold windowEnded
  exact ⟨rfl, rfl, rfl, rfl, rfl⟩

theorem exec_windowEnd_own {s : State} {sl : Slot} (map : Flags16) (free : NoneInHand s) (window : s.bus.state = .ackWindow)
    (own : s.bus.report = .ownGood) (slot : s.tx.slot = some sl) (holder : isHolder s.mship.state = true) :
    exec (.ackWindowEnd map) s = .next (judgeRequired sl map (windowEnded map s)) := by
  rw [exec_ackWindowEnd map free window, own]
  refine congrArg Host.Outcome.next ?_
  unfold judge
  rw [show (windowEnded map s).tx.slot = some sl from slot, show (windowEnded map s).mship.state = s.mship.state from rfl]
  cases state : s.mship.state with
  | filling | member | leaving => rfl
  | unconfigured | outside | joinSent | awaitState =>
    exact absurd (state ▸ holder) (by decide)

theorem portLaw_of_port {s t : State} (law : PortLaw s) (same : t.port = s.port) : PortLaw t := by
  unfold PortLaw
  rw [same]
  exact law

/-- A departure at the window's end, the slot emptied (R94). -/
theorem depart_atWindow {r : DepartReason} {w : State} (other : r ≠ .outOfStep) (law : PortLaw w)
    (listening : w.mship.listening = true) :
    Departed w (depart r (setSlot none w)) ∧ (depart r (setSlot none w)).mship.state = .outside
      ∧ (depart r (setSlot none w)).tx.sendList = []
      ∧ ((depart r (setSlot none w)).port.notices.getLast? = some (.leftGroup r)
        ∨ (depart r (setSlot none w)).port.noticesDropped = true)
      ∧ (depart r (setSlot none w)).bus = w.bus ∧ (depart r (setSlot none w)).access = w.access := by
  obtain ⟨outside, emptied, last, -⟩ := depart_outside (s := setSlot none w) other (depart r (setSlot none w)).bus
  exact ⟨depart_departed (s := setSlot none w) r law listening, outside, emptied, last, depart_bus r (setSlot none w),
    depart_access r (setSlot none w)⟩

end Sys2Proof.Machine

namespace Sys2Proof

open Sys2Proof.Machine Sys2Proof.Safety

/-- Settles O56: what follows the window, by its report and the positions driven. -/
theorem ackWindowSettlesFrame : Obligations.AckWindowSettlesFrame := by
  intro s map free window member
  have holder : isHolder s.mship.state = true := by
    rw [member]
    rfl
  refine ⟨fun heard => ?_, fun sl collided slot => ⟨fun none => ?_, fun eighth heard listening law => ?_⟩,
    fun sl limit own slot its => ?_⟩
  · rw [exec_ackWindowEnd map free window, heard]
  · rw [exec_ackWindowEnd map free window, collided]
    refine congrArg Host.Outcome.next ?_
    by_cases eighth : s.access.collisions = 8
    · have unheard : sl.heard = false := none.resolve_left (by omega)
      refine (if_pos eighth).trans ?_
      rw [disposeAtLineFault, show (windowEnded map s).tx.slot = some sl from slot]
      exact if_neg fun h => by rw [unheard] at h; cases h.1
    · exact if_neg eighth
  · have disposed : disposeAtLineFault (windowEnded map s) = depart .isolated (setSlot none (windowEnded map s)) := by
      rw [disposeAtLineFault, show (windowEnded map s).tx.slot = some sl from slot]
      refine if_pos ⟨heard, ?_⟩
      rw [show (windowEnded map s).mship.state = .member from member]
      nofun
    refine ⟨depart .isolated (setSlot none (windowEnded map s)), ?_,
      depart_atWindow (w := windowEnded map s) (by decide) (portLaw_of_port law rfl) listening⟩
    rw [exec_ackWindowEnd map free window, collided, ← disposed]
    exact congrArg Host.Outcome.next (if_pos eighth)
  · intro w missing silent
    have run : exec (.ackWindowEnd map) s = .next (judgeRequired sl map w) :=
      exec_windowEnd_own map free window own slot holder
    obtain ⟨state, repeats, listens, -, port⟩ : w.mship.state = s.mship.state ∧ w.mship.repeatLimit = s.mship.repeatLimit
        ∧ w.mship.listening = s.mship.listening ∧ w.tx.slot = s.tx.slot ∧ w.port = s.port := windowEnded_keeps map s
    have its : w.mship.repeatLimit = some limit := repeats.trans its
    have settled_drops : ∀ d ∈ w.tx.drops, d ∈ s.tx.drops := fun d mem => (List.mem_filter.1 mem).1
    have member : w.mship.state = .member := state.trans member
    clear_value w
    refine ⟨fun some left => ?_, fun some up quiet listening law => ?_, fun alone =>
      ⟨fun all => ?_, fun some up acked capacity => ?_⟩⟩
    · rw [run, judgeRequired_repeats its some left]
      rfl
    · obtain ⟨x, required, -⟩ := some
      have isolated := judgeRequired_isolates (map := map) its ⟨x, required⟩ up
        fun ⟨y, required, driven⟩ => by rw [quiet y required] at driven; cases driven
      refine ⟨depart .isolated (setSlot none w), run.trans (congrArg Host.Outcome.next isolated),
        depart_atWindow (w := w) (by decide) (portLaw_of_port law port) (listens.trans listening)⟩
    · rw [run, judgeRequired_settles fun x required => by
          by_contra quiet
          exact all x ⟨required, Bool.eq_false_iff.2 quiet⟩,
        settle_all (SettlesAlone.not_leave alone), settleEffects_alone map _ alone]
      rfl
    · obtain ⟨-, -, -, service, -⟩ := capacity
      obtain ⟨x, some⟩ := not_forall.1 acked
      obtain ⟨required, driven⟩ := Classical.not_imp.1 some
      have driven : flag map x = true := by simpa using driven
      have law : ∀ d ∈ (setSlot none w).tx.drops, d.cls = .settlement → d.reason = .noAck :=
        fun d mem => service.2.2 d (settled_drops d mem)
      obtain ⟨ds, eq, named, kept⟩ := foldl_queueSettlementDrop (l := stations.filter (flag (sl.required &&& ~~~map))) law
      have listed : ∀ y, y ∈ stations.filter (flag (sl.required &&& ~~~map)) ↔ missing y := fun y => by
        rw [List.mem_filter, flag_and, flag_not, Bool.and_eq_true, Bool.not_eq_true']
        exact and_iff_right (List.mem_finRange y)
      have settled : judgeRequired sl map w = (setSlot none w).withTx { (setSlot none w).tx with drops := ds } := by
        rw [judgeRequired_short its ‹_› up ⟨x, required, driven⟩]
        refine (if_neg (SettlesAlone.not_leave alone)).trans ?_
        rw [settleEffects_alone map _ alone]
        refine (if_neg ?_).trans eq
        rw [show (setSlot none w).mship.state = .member from member]
        nofun
      refine ⟨_, run.trans (congrArg Host.Outcome.next settled), rfl, fun y its => named y ((listed y).2 its),
        fun d out => ?_⟩
      exact kept d fun mem => out ((listed _).1 mem)

end Sys2Proof
end

section
/-! What a settlement does to the ticket that rode on the frame, and the own JOIN's settlement, repeat or founding. -/

namespace Sys2Proof.Machine

open Sys2Proof.Safety

/-- The settlement of a LEAVE: its ticket DONE, then the departure, no DROP queued (R88, R172). -/
theorem settle_leave {sl : Slot} {missing map : Flags16} {w : State} {k : TicketNo} {tk : Ticket}
    (leave : sl.frame.body = .leave)
    (rides : sl.ticket = some k) (used : w.port.tickets[k] = some tk) (live : tk.state ≠ .done) :
    settle sl missing map w = depart .leave (setSlot none (w.withPort (completed k tk .done w.port))) := by
  refine (if_pos leave).trans ?_
  unfold settleEffects
  rw [leave, rides]
  dsimp only
  rw [complete_completed (s := setSlot none w) used live]
  rfl

/-- A completion keeps the laws of the tickets and notices. -/
theorem portLaw_completed {s : State} {k : TicketNo} {tk : Ticket} (o : Completion) (law : PortLaw s)
    (used : s.port.tickets[k] = some tk) (live : tk.state ≠ .done) : PortLaw (s.withPort (completed k tk o s.port)) := by
  rw [← complete_completed used live]
  exact (complete_moves (a := .all) k o s).keeps_portLaw law

/-- What an own frame with every position driven settles to, where it is no LEAVE. -/
theorem exec_settles {s : State} {sl : Slot} {map : Flags16} (free : NoneInHand s) (window : s.bus.state = .ackWindow)
    (own : s.bus.report = .ownGood) (slot : s.tx.slot = some sl) (holder : isHolder s.mship.state = true)
    (all : ∀ x, flag sl.required x = true → flag map x = true) (other : sl.frame.body ≠ .leave) :
    exec (.ackWindowEnd map) s = .next (settleEffects sl map (setSlot none (windowEnded map s))) := by
  rw [exec_windowEnd_own map free window own slot holder, judgeRequired_settles all, settle_all other]

/-! ### The own JOIN (R80, R170) -/

theorem flagClear_ne_zero {map : Flags16} {n : Station} : flagClear map n ≠ 0 ↔ ∃ x, x ≠ n ∧ flag map x = true := by
  rw [Ne, flags_eq_zero_iff, not_forall]
  refine exists_congr fun x => ?_
  rw [flag_flagClear, Bool.not_eq_false, Bool.and_eq_true, and_comm]
  simp

theorem foundCell_eq (c : CellRec) :
    foundCell c = { c with status := if c.status = .damaged then .damaged else .present } := by
  unfold foundCell
  obtain ⟨v, check, status, fresh, upset⟩ := c
  cases status <;> rfl

/-- What an ack window's end leaves beside the timers, the DROPs and the bus. -/
theorem windowEnded_rest (map : Flags16) (s : State) :
    (windowEnded map s).straps = s.straps ∧ (windowEnded map s).mem = s.mem ∧ (windowEnded map s).cells = s.cells
      ∧ (windowEnded map s).bundle = s.bundle ∧ (windowEnded map s).pending = s.pending := by
  unfold windowEnded
  exact ⟨rfl, rfl, rfl, rfl, rfl⟩

theorem exec_windowEnd_join {s : State} {sl : Slot} (map : Flags16) (free : NoneInHand s) (window : s.bus.state = .ackWindow)
    (sent : s.mship.state = .joinSent) (own : s.bus.report = .ownGood) (slot : s.tx.slot = some sl) :
    exec (.ackWindowEnd map) s = .next (judgeJoin sl map (windowEnded map s)) := by
  obtain ⟨state, -, -, held, -⟩ := windowEnded_keeps map s
  rw [exec_ackWindowEnd map free window, own]
  refine congrArg Host.Outcome.next ?_
  rw [judge, held.trans slot, state.trans sent]

/-- A JOIN that no station acked, with its repeats used up, founds the group and completes the JOIN. -/
theorem judgeJoin_founds {w : State} {sl : Slot} {map : Flags16} {limit : Nat} {k : TicketNo} {tk : Ticket}
    (quiet : flagClear map (self w) = 0) (its : w.mship.repeatLimit = some limit) (up : limit ≤ sl.repeats)
    (used : w.port.tickets[k] = some tk) (live : tk.state ≠ .done) (kind : tk.kind = .join)
    (only : ∀ (j : TicketNo) (u : Ticket), w.port.tickets[j] = some u → u.kind = .join → u.state ≠ .done → j = k) :
    judgeJoin sl map w
      = (foundedState sl.frame.head.seq (setSlot none w)).withPort (completed k tk .founded w.port) := by
  rw [judgeJoin, if_neg (not_not_intro quiet), if_pos ((exhausted_iff its).2 up), found_eq, completeJoin]
  have kept : (foundedState sl.frame.head.seq (setSlot none w)).port = w.port := rfl
  generalize foundedState sl.frame.head.seq (setSlot none w) = f at kept ⊢
  rw [← kept] at used only ⊢
  have join : liveKind f.port .join = some k := findLive_eq used live (beq_iff_eq.2 kind)
    fun j u usedj livej kindj => only j u usedj (beq_iff_eq.1 kindj) livej
  rw [join]
  exact complete_completed used live

/-- The founded group: the station alone, MEMBER with the JOIN's sequence. -/
theorem foundedState_entry (q : Seq) (s : State) (x : Station) : (foundedState q s).mship.table[x] =
    if x = self s then { absentEntry with state := .member, lastSeq := q } else absentEntry := by
  unfold foundedState
  refine (getElem_set_fin _ _ _ _).trans ?_
  rw [getElem_replicate_fin]

theorem foundedState_silence (q : Seq) (s : State) (x : Station) : (foundedState q s).mship.silence[x] = none := by
  unfold foundedState
  exact getElem_replicate_fin none x

theorem foundedState_lock (q : Seq) (s : State) (r : Region) : (foundedState q s).locks[r] = freeRegion := by
  unfold foundedState
  exact getElem_replicate_fin freeRegion r

theorem foundedState_cell (q : Seq) (s : State) (c : CellIx) : (foundedState q s).cells[c] = { s.cells[c] with
    status := if s.cells[c].status = .damaged then .damaged else .present } := by
  unfold foundedState
  exact (getElem_map_fin _ _ _).trans (foundCell_eq _)

/-- What the founding leaves. -/
theorem foundedState_rest (q : Seq) (s : State) :
    (foundedState q s).mem = s.mem ∧ (foundedState q s).bundle = s.bundle ∧ (foundedState q s).bus = s.bus
      ∧ (foundedState q s).access = s.access ∧ (foundedState q s).tx = s.tx ∧ (foundedState q s).straps = s.straps
      ∧ (foundedState q s).pending = s.pending := by
  simp only [foundedState, State.withCells, State.withApply, State.withLocks, State.withMship, State.withSponsor,
    State.withMend,
    and_self]

end Sys2Proof.Machine

namespace Sys2Proof

open Sys2Proof.Machine Sys2Proof.Safety

/-- Settles O57: kind by kind at a MEMBER, and the LEAVE's at a LEAVING station. -/
theorem settlementMovesTicket : Obligations.SettlementMovesTicket := by
  refine ⟨fun s map sl free window member own slot all => ?_,
    fun s map sl k tk limit free window leaving own slot body rides used live its listening law => ?_⟩
  · intro w settled
    have holder : isHolder s.mship.state = true := by
      rw [member]
      rfl
    have run : sl.frame.body ≠ .leave → exec (.ackWindowEnd map) s = .next (settleEffects sl map (setSlot none w)) :=
      exec_settles free window own slot holder all
    obtain ⟨port, mend, bundle, mends⟩ : w.port = s.port ∧ w.mend = s.mend ∧ w.bundle = s.bundle ∧ w.tx.mend = s.tx.mend :=
      ⟨rfl, rfl, rfl, rfl⟩
    have settled_eq : settled = setSlot none w := rfl
    clear_value settled w
    subst settled_eq
    refine ⟨fun r k tk body rides used => ?_, fun target bytes k tk body rides used live placed => ?_,
      fun x c m rest body current responder unsent => ?_, fun wb b tk body more outgoing used begun => ?_⟩
    · rw [← port] at used ⊢
      have effects : settleEffects sl map (setSlot none w) = awaitGrant k (setSlot none w) := by
        rw [settleEffects, body, rides]
      rw [run (by rw [body]; nofun), effects, awaitGrant, show (setSlot none w).port.tickets[k] = some tk from used]
      refine ⟨fun sending => ?_, fun other => ?_⟩
      · refine congrArg Host.Outcome.next ((if_pos (by rw [Option.any_some, sending]; rfl)).trans ?_)
        exact advanceTicket_live (s := setSlot none w) used (by rw [sending]; nofun)
      · exact congrArg Host.Outcome.next (if_neg (by rw [Option.any_some, beq_iff_eq]; exact other))
    · rw [← port] at used ⊢
      have effects : settleEffects sl map (setSlot none w) = complete k (signalOutcome sl target map) (setSlot none w) := by
        rw [settleEffects, body, rides]
      rw [run (by rw [body]; nofun), effects, complete_completed (s := setSlot none w) used live]
      refine ⟨fun inside => ?_, fun ⟨x, aim, outside⟩ => ?_⟩
      · have outcome : signalOutcome sl target map = .delivered := by
          cases target with
          | none => rfl
          | some x =>
            have required := inside x rfl
            have placed : sl.targetIn = flag sl.required x := placed
            exact if_pos (by rw [placed, required, all x required]; rfl)
        rw [outcome]
        rfl
      · subst aim
        have placed : sl.targetIn = flag sl.required x := placed
        have outcome : signalOutcome sl (some x) map = .notDelivered := if_neg (by rw [placed, outside]; nofun)
        rw [outcome]
        rfl
    · rw [← mend] at current ⊢
      rw [← mends] at unsent
      rw [run (by rw [body]; nofun), settleEffects, body]
      refine congrArg Host.Outcome.next ((if_pos ?_).trans ?_)
      · show (currentCell w.mend == some c && w.mend.current.any (·.responder == x) && w.tx.mend.isNone) = true
        rw [current, unsent]
        simp [currentCell, responder]
      · rw [show (setSlot none w).mend = w.mend from rfl, current]
        rfl
    · rw [← bundle] at outgoing ⊢
      rw [← port] at used
      rw [run (by rw [body]; nofun), settleEffects, body]
      dsimp only
      rw [show (setSlot none w).bundle.outgoing = some b from outgoing]
      refine congrArg Host.Outcome.next (if_pos ⟨more, ?_⟩)
      rw [bundleBegun, show (setSlot none w).port.tickets[b.ticket] = some tk from used, Option.any_some,
        beq_eq_false_iff_ne.2 begun]
      rfl
  · intro w acked
    have holder : isHolder s.mship.state = true := by
      rw [leaving]
      rfl
    have run : exec (.ackWindowEnd map) s = .next (judgeRequired sl map w) :=
      exec_windowEnd_own map free window own slot holder
    obtain ⟨state, repeats, listens, -, port⟩ : w.mship.state = s.mship.state ∧ w.mship.repeatLimit = s.mship.repeatLimit
        ∧ w.mship.listening = s.mship.listening ∧ w.tx.slot = s.tx.slot ∧ w.port = s.port := windowEnded_keeps map s
    have its : w.mship.repeatLimit = some limit := repeats.trans its
    clear_value w
    rw [← port] at used ⊢
    have law : PortLaw w := portLaw_of_port law port
    refine ⟨fun settles => ?_, fun some left => ?_, fun ⟨x, required⟩ quiet up => ?_⟩
    · refine ⟨depart .leave (setSlot none (w.withPort (completed k tk .done w.port))),
        run.trans (congrArg Host.Outcome.next ?_),
        depart_atWindow (w := w.withPort (completed k tk .done w.port)) (by decide) (portLaw_completed .done law used live)
          (listens.trans listening)⟩
      by_cases all : ∀ x, flag sl.required x = true → flag map x = true
      · rw [judgeRequired_settles all, settle_leave body rides used live]
      · obtain ⟨up, acked⟩ := settles.resolve_left all
        obtain ⟨x, quiet⟩ := not_forall.1 all
        obtain ⟨required, undriven⟩ := Classical.not_imp.1 quiet
        rw [judgeRequired_short its ⟨x, required, Bool.eq_false_iff.2 undriven⟩ up acked, settle_leave body rides used live]
    · rw [run, judgeRequired_repeats its some left]
      rfl
    · exact ⟨depart .isolated (setSlot none w), run.trans (congrArg Host.Outcome.next
        (judgeRequired_isolates its ⟨x, required⟩ up quiet)), depart_atWindow (by decide) law (listens.trans listening)⟩

/-- Settles O58: the JOIN's judgement, and the founding block by block. -/
theorem ownJoinSettles : Obligations.OwnJoinSettles := by
  intro s map sl limit k tk free window sent own slot rides sole kind arg only its w settled acked
  have run : exec (.ackWindowEnd map) s = .next (judgeJoin sl map w) := exec_windowEnd_join map free window sent own slot
  have port : w.port = s.port := (windowEnded_keeps map s).2.2.2.2
  have repeats : w.mship.repeatLimit = s.mship.repeatLimit := (windowEnded_keeps map s).2.1
  obtain ⟨straps, mem, cells, bundle, pending⟩ : w.straps = s.straps ∧ w.mem = s.mem ∧ w.cells = s.cells
      ∧ w.bundle = s.bundle ∧ w.pending = s.pending := windowEnded_rest map s
  have its : w.mship.repeatLimit = some limit := repeats.trans its
  have settled_eq : settled = setSlot none w := rfl
  clear_value settled w
  subst settled_eq
  have driven : flagClear map (self w) ≠ 0 ↔ acked := by
    rw [flagClear_ne_zero, self, straps]
  obtain ⟨used, live, -⟩ := sole
  rw [← port] at used only ⊢
  rw [← cells, ← mem, ← bundle, ← straps, ← pending]
  refine ⟨fun some => ?_, fun quiet left => ?_, fun quiet up => ?_⟩
  · rw [run, judgeJoin, if_pos (driven.2 some), joinAcked, rides]
    dsimp only
    exact congrArg Host.Outcome.next
      (advanceTicket_live (s := startPresence (setStation .awaitState (setSlot none w))) used live)
  · rw [run, judgeJoin, if_neg (mt driven.1 quiet), if_neg (by rw [exhausted_iff its]; exact Nat.not_le.2 left)]
    rfl
  · have found := judgeJoin_founds (not_not.1 (mt driven.1 quiet)) its up used live kind only
    generalize sl.frame.head.seq = q at found ⊢
    exact ⟨_, run.trans (congrArg Host.Outcome.next found), rfl, foundedState_entry q (setSlot none w),
      foundedState_silence q (setSlot none w), rfl, foundedState_lock q (setSlot none w),
        foundedState_cell q (setSlot none w),
      rfl, rfl, rfl, rfl, foundedState_rest q (setSlot none w)⟩

end Sys2Proof
end

section
/-! The Mend Unit at a MENDREPLY, at its window's expiry and at a host read. -/

namespace Sys2Proof.Machine

open Sys2Proof.Safety

/-! ### The cyclic order of responders (R119) -/

theorem responderOrder_place : ∀ n x : Station, x ≠ n → (responderOrder n)[cyclicPlace n x]? = some x := by
  decide +kernel

theorem responderOrder_get :
    ∀ (n : Station) (j : Fin 15), ∃ y ∈ (responderOrder n)[j.val]?, y ≠ n ∧ cyclicPlace n y = j := by
  decide +kernel

theorem mem_responderOrder : ∀ n y : Station, y ∈ responderOrder n → y ≠ n := by
  decide +kernel

theorem nextResponder_asked {s : State} {tried : Flags16} {x : Station} (next : NextAsked s tried x) :
    nextResponder tried s = some x := by
  obtain ⟨⟨peer, member, untried⟩, least⟩ := next
  have place := responderOrder_place s.straps.number x peer
  obtain ⟨short, at_place⟩ := List.getElem?_eq_some_iff.1 place
  refine List.find?_eq_some_iff_getElem.2 ⟨?_, cyclicPlace s.straps.number x, short, at_place, fun j before => ?_⟩
  · rw [(isMember_iff _ _).2 member, untried]
    rfl
  · obtain ⟨y, its, other, seat⟩ :=
      responderOrder_get s.straps.number ⟨j, lt_trans before (lt_of_lt_of_eq short (by simp [responderOrder]))⟩
    obtain ⟨_, rfl⟩ := List.getElem?_eq_some_iff.1 its
    by_contra open_
    rw [Bool.not_eq_true, Bool.not_eq_false', Bool.and_eq_true, isMember_iff, Bool.not_eq_true'] at open_
    exact absurd (least _ ⟨other, open_⟩) (by rw [seat]; exact Nat.not_le.2 before)

theorem nextResponder_left {s : State} {tried : Flags16} (left : NoneLeft s tried) : nextResponder tried s = none := by
  refine List.find?_eq_none.2 fun y mem open_ => ?_
  rw [Bool.and_eq_true, isMember_iff, Bool.not_eq_true'] at open_
  exact Bool.false_ne_true (open_.2.symm.trans (left y (mem_responderOrder _ y mem) open_.1))

theorem firstResponder_asked {s : State} {c : CellIx} {x : Station} (first : FirstAsked s c x) :
    firstResponder c s = some x := by
  unfold firstResponder
  obtain ⟨holder, peer, member⟩ | ⟨no, next⟩ := first
  · rw [holder]
    exact if_pos (by rw [(isMember_iff _ _).2 member]; rw [self, decide_eq_true peer]; rfl)
  · split
    · rename_i h holder
      refine (if_neg ?_).trans (nextResponder_asked next)
      rw [Bool.and_eq_true, decide_eq_true_eq, isMember_iff]
      rintro ⟨peer, member⟩
      exact (no h holder).elim peer fun out => out member
    · exact nextResponder_asked next

theorem firstResponder_left {s : State} (c : CellIx) (left : NoneLeft s 0) : firstResponder c s = none := by
  unfold firstResponder
  split
  · rename_i h holder
    refine (if_neg ?_).trans (nextResponder_left left)
    rw [Bool.and_eq_true, decide_eq_true_eq, isMember_iff]
    rintro ⟨peer, member⟩
    have tried := left h peer member
    simp [flag] at tried
  · exact nextResponder_left left

/-! ### Mends begun, moved on and ended (R118, R124, R127) -/

theorem beginMend_first {s : State} {b : CellIx} {bs : List CellIx} {x : Station} (member : s.mship.state = .member)
    (list : s.mend = { cells := b :: bs, current := none }) (first : FirstAsked s b x) :
    beginMend s = (s.withMend
      { cells := b :: bs, current := some { responder := x, tried := flagSet 0 x, window := none } }).withTx
      { s.tx with mend := some { responder := x, cell := b } } := by
  rw [beginMend, if_pos ⟨member, by rw [list]⟩, list, beginFrom, firstResponder_asked first]
  rfl

theorem beginMend_empty {s : State} (list : s.mend = { cells := [], current := none }) : beginMend s = s := by
  obtain ⟨pending, straps, mem, cells, apply, locks, mship, sponsor, bundle, mend, port, bus, access, tx⟩ := s
  cases list
  unfold beginMend
  split <;> rfl

/-- The next responder is read from the table's states alone, and the first one from the locks beside them. -/
theorem nextAsked_of {s w : State} {tried : Flags16} {x : Station} (straps : w.straps = s.straps)
    (states : ∀ y : Station, w.mship.table[y].state = s.mship.table[y].state) (next : NextAsked s tried x) :
    NextAsked w tried x := by
  unfold NextAsked
  dsimp only
  simp only [straps, states]
  exact next

theorem noneLeft_of {s w : State} {tried : Flags16} (straps : w.straps = s.straps)
    (states : ∀ y : Station, w.mship.table[y].state = s.mship.table[y].state)
    (left : NoneLeft s tried) : NoneLeft w tried := by
  unfold NoneLeft
  simp only [straps, states]
  exact left

theorem firstAsked_of {s w : State} {c : CellIx} {x : Station} (straps : w.straps = s.straps) (locks : w.locks = s.locks)
    (states : ∀ y : Station, w.mship.table[y].state = s.mship.table[y].state)
    (first : FirstAsked s c x) : FirstAsked w c x := by
  refine Or.imp (fun its => ?_) (fun its => ⟨fun h held => ?_, nextAsked_of straps states its.2⟩) first
  · rwa [locks, straps, states]
  · rw [straps, states]
    exact its.1 h (by rwa [locks] at held)

theorem attemptMend_next {s : State} {m : CurrentMend} {c : CellIx} {rest : List CellIx} {x : Station}
    (mends : s.mend = { cells := c :: rest, current := some m }) (member : s.mship.state = .member)
    (next : NextAsked s m.tried x) : attemptMend s = asked x c m.tried s := by
  rw [attemptMend, mends]
  dsimp only
  rw [if_pos member, nextResponder_asked next]
  rfl

/-- With no station left and no other cell listed, the cell is lost and no mend follows. -/
theorem attemptMend_lost {s : State} {m : CurrentMend} {c : CellIx}
    (mends : s.mend = { cells := [c], current := some m }) (member : s.mship.state = .member) (left : NoneLeft s m.tried) :
    attemptMend s = postNotice (.cellLost c)
      ((s.withMend { cells := [], current := none }).withTx { s.tx with mend := none }) := by
  have ended : endMend s = (s.withMend { cells := [], current := none }).withTx { s.tx with mend := none } := by
    rw [endMend, mends]
    rfl
  obtain ⟨p, posted, -⟩ := postNotice_changes (.cellLost c) (endMend s)
  rw [attemptMend, mends]
  dsimp only
  rw [if_pos member, nextResponder_left left]
  dsimp only
  rw [beginMend_empty (by rw [posted, ended]; rfl), ended]

theorem attemptMend_leaving {s : State} {m : CurrentMend} {c : CellIx} {rest : List CellIx}
    (mends : s.mend = { cells := c :: rest, current := some m }) (outside : s.mship.state ≠ .member) :
    attemptMend s = (s.withMend { s.mend with current := none }).withTx { s.tx with mend := none } := by
  rw [attemptMend, mends]
  exact if_neg outside

/-- A mend that ends begins the next with a part of the list's tail, and changes nothing beside the notices. -/
theorem beginMend_ended (s : State) : ∃ p m t,
    beginMend (endMend s) = ((s.withPort p).withMend m).withTx { s.tx with mend := t } ∧ m.cells <:+ s.mend.cells.tail := by
  obtain ⟨p, m, t, eq, -, suffix⟩ := beginMend_grown (endMend s)
  exact ⟨p, m, t, eq, suffix⟩

/-- A DATA reply writes the cell where it is still DAMAGED. -/
theorem writeCell_mended {s : State} (c : CellIx) (v : Version) (d : CellData) (law : Memory.wf s.mem) :
    ∃ (m : Memory) (cs : Vector CellRec 256),
      (if s.cells[c].status = .damaged then writeCell c v d s.cells[c].fresh s else s) = (s.withMem m).withCells cs
      ∧ (s.cells[c].status = .damaged → cellData m c = d ∧ cs[c] =
          { version := v, check := cellCheck v d, status := .present, fresh := s.cells[c].fresh, upset := false })
      ∧ (s.cells[c].status ≠ .damaged → m = s.mem ∧ cs = s.cells)
      ∧ ∀ b : CellIx, b ≠ c → cellData m b = cellData s.mem b ∧ cs[b] = s.cells[b] := by
  by_cases damaged : s.cells[c].status = .damaged
  · refine ⟨_, _, (if_pos damaged).trans (writeCell_store _ _ _ _ _), fun _ => ⟨?_, ?_⟩, absurd damaged, fun b other =>
      ⟨?_, ?_⟩⟩
    · exact cellData_writeCellData_same _ _ law
    · exact (getElem_set_fin _ _ _ _).trans (if_pos rfl)
    · exact cellData_writeCellData_ne _ _ other
    · exact (getElem_set_fin _ _ _ _).trans (if_neg other)
  · exact ⟨s.mem, s.cells, if_neg damaged, fun its => absurd its damaged, fun _ => ⟨rfl, rfl⟩, fun _ _ => ⟨rfl, rfl⟩⟩

/-- A mend lost with no other cell listed: the loss is posted, or NOTICES_DROPPED marks that it found no room. -/
theorem postNotice_cases (n : Notice) (s : State) :
    (s.port.notices.length + reserved s.port < 32 →
        postNotice n s = s.withPort { s.port with notices := s.port.notices ++ [n] })
      ∧ (32 ≤ s.port.notices.length + reserved s.port
        → postNotice n s = s.withPort { s.port with noticesDropped := true }) :=
  ⟨fun room => postNotice_room (roomFree_true room), fun full => postNotice_full (roomFree_false full)⟩

end Sys2Proof.Machine

namespace Sys2Proof

open Sys2Proof.Machine Sys2Proof.Safety

/-- Settles O52: the copy written and the mend ended, the next attempt, the loss, and what is no answer. -/
theorem mendReplyRepairsOrMovesOn : Obligations.MendReplyRepairsOrMovesOn := by
  intro s m c rest law mends once serving first lost
  refine ⟨?_, fun free runs => ?_⟩
  · intro h a answer f applies member
    have holder : isHolder s.mship.state = true := applies.2.1.1
    have straps : (reached f s).straps = s.straps := rfl
    have states := reached_state f s
    have mended : (reached f s).mend = { cells := c :: rest, current := some m } := mends
    have run : ∀ {t : State}, applyMendReply h.sender s.straps.number a answer (reached f s) = t
      → t.bus = (hearing f s).bus →
        t.mship.state = s.mship.state →
        exec (.mendReplyFrame h s.straps.number a answer) s = .next (t.withBus (busAfter f true s.bus)) :=
          fun made bus state =>
      exec_effect applies (congrArg some made) bus (by rw [state]; exact holder)
    have current : currentCell (reached f s).mend = some c := by
      rw [mended]
      rfl
    have named : a = c → s.straps.number = self (reached f s) ∧ isMember (reached f s).mship.table h.sender
        ∧ ((reached f s).mship.state = .member ∨ (reached f s).mship.state = .leaving)
        ∧ currentCell (reached f s).mend = some a := fun its =>
      ⟨rfl, (isMember_reached f s _).trans ((isMember_iff _ _).2 member), serving, its ▸ current⟩
    have refused : a = c → answer = .noCopy → m.responder = h.sender → m.window ≠ none →
        applyMendReply h.sender s.straps.number a answer (reached f s)
          = attemptMend (reached f s) := fun its no responder window => by
      refine (if_pos (named its)).trans ?_
      rw [no, mended]
      exact if_pos ⟨responder, Option.isSome_iff_ne_none.2 window⟩
    refine ⟨fun v d its data => ?_, fun x its no responder window state next => ?_,
      fun its no responder window state left alone => ?_,
      fun no => ?_⟩
    · obtain ⟨mem, cs, written, damaged, kept, others⟩ := writeCell_mended (s := reached f s) c v d law.1
      have made : applyMendReply h.sender s.straps.number a answer (reached f s)
          = beginMend (endMend (((reached f s).withMem mem).withCells cs)) := by
        refine (if_pos (named its)).trans ?_
        rw [data, its]
        exact congrArg (fun w => beginMend (endMend w)) written
      have ended : endMend (((reached f s).withMem mem).withCells cs) = ((((reached f s).withMem mem).withCells cs).withMend
          { cells := rest, current := none }).withTx { (taken f s).tx with mend := none } := by
        rw [endMend, show (((reached f s).withMem mem).withCells cs).mend = _ from mended]
        rfl
      obtain ⟨p, u, mendSlot, begun, suffix⟩ := beginMend_ended (((reached f s).withMem mem).withCells cs)
      rw [show (((reached f s).withMem mem).withCells cs).mend = _ from mended] at suffix
      refine ⟨_, run made (by rw [begun]; rfl) (by rw [begun]; rfl), ?_⟩
      refine ⟨fun its => ?_, fun its => ?_, fun b other => ?_, fun left => ?_, fun alone => ?_,
        fun b bs x next state asks => ?_⟩
      · rw [begun]
        exact damaged its
      · rw [begun]
        exact kept its
      · rw [begun]
        exact others b other
      · rw [begun] at left
        exact once (suffix.subset left)
      · subst alone
        rw [beginMend_empty (by rw [ended]; rfl), ended]
        rfl
      · subst next
        have started := beginMend_first (s := ((((reached f s).withMem mem).withCells cs).withMend
          { cells := b :: bs, current := none }).withTx { (taken f s).tx with mend := none }) state rfl
          (firstAsked_of (s := s) rfl rfl states asks)
        rw [ended, started]
        rfl
    · rw [run ((refused its no responder window).trans
        (attemptMend_next mended state (nextAsked_of straps states next))) rfl rfl]
      rfl
    · subst alone
      have posted := postNotice_cases (.cellLost c)
        (((reached f s).withMend { cells := [], current := none }).withTx { (reached f s).tx with mend := none })
      obtain ⟨p, same, -⟩ := postNotice_changes (.cellLost c)
        (((reached f s).withMend { cells := [], current := none }).withTx { (reached f s).tx with mend := none })
      refine ⟨_, run ((refused its no responder window).trans
        (attemptMend_lost mended state (noneLeft_of straps states left)))
        (by rw [same]; rfl) (by rw [same]; rfl), fun room => ?_, fun full => ?_⟩
      · rw [posted.1 room]
        rfl
      · rw [posted.2 full]
        rfl
    · rw [run (t := reached f s) ?_ rfl rfl]
      · rfl
      · by_cases its : a = c
        · obtain ⟨noCopy, idle⟩ := no.resolve_left (not_not_intro its)
          refine (if_pos (named its)).trans ?_
          rw [noCopy, mended]
          refine if_neg ?_
          rintro ⟨responder, window⟩
          exact idle.elim (fun other => other responder) fun stopped => Option.isSome_iff_ne_none.1 window stopped
        · refine if_neg ?_
          rintro ⟨-, -, -, its'⟩
          exact its (Option.some.inj (its'.symm.trans current))
  · have run : exec .mendWindowExpiry s = .next (attemptMend s) := by
      refine (atEvent_free expireMendWindow free).trans (congrArg Host.Outcome.next ?_)
      rw [expireMendWindow, mends]
      exact if_pos (Option.isSome_iff_ne_none.2 runs)
    refine ⟨fun x its next => ?_, fun its left alone => ?_, fun its => ?_⟩
    · rw [run, attemptMend_next mends its next]
    · subst alone
      refine ⟨_, run.trans (congrArg Host.Outcome.next (attemptMend_lost mends its left)), ?_⟩
      exact postNotice_cases (.cellLost c) ((s.withMend { cells := [], current := none }).withTx { s.tx with mend := none })
    · rw [run, attemptMend_leaving mends (by rw [its]; nofun)]
      rfl

end Sys2Proof
end

section
/-! Verification of cells at a host read and at a build, and the mends that begin with the cells that fail. -/

namespace Sys2Proof.Machine

open Sys2Proof.Safety

/-! ### Cells damaged in order (R7, R8) -/

/-- Cells made DAMAGED in the order of the list, each handed to the Mend Unit (R8). -/
def damageAll (l : List CellIx) (s : State) : State := l.foldl (fun s c => damageCell c s) s

/-- The mend list with the cells of l that it does not hold at its tail (R117). -/
def listAll (l : List CellIx) (m : MendUnit) : MendUnit :=
  { m with cells := m.cells ++ l.filter fun c => decide (c ∉ m.cells) }

theorem listForMend_eq (c : CellIx) (s : State) :
    listForMend c s = s.withMend (if s.mship.state = .member then listAll [c] s.mend else s.mend) := by
  unfold listForMend listAll
  by_cases member : s.mship.state = .member
  · rw [if_pos member, List.filter_singleton]
    by_cases listed : c ∈ s.mend.cells
    · rw [if_neg fun h => h.2 listed, decide_eq_false (not_not_intro listed)]
      simp [State.withMend]
    · rw [if_pos ⟨member, listed⟩, decide_eq_true listed]
      rfl
  · rw [if_neg member, if_neg fun h => member h.1]
    rfl

theorem listAll_cons {c : CellIx} {l : List CellIx} (new : c ∉ l) (m : MendUnit) :
    listAll l (listAll [c] m) = listAll (c :: l) m := by
  unfold listAll
  dsimp only
  congr 1
  by_cases listed : c ∈ m.cells
  · simp [listed]
  · have others : l.filter (fun x => decide (x ∉ m.cells ++ [c])) = l.filter fun x => decide (x ∉ m.cells) :=
      List.filter_congr fun x mem => by
        have : x ≠ c := fun same => new (same ▸ mem)
        simp [this]
    have alone : [c].filter (fun x => decide (x ∉ m.cells)) = [c] := List.filter_cons_of_pos (decide_eq_true listed)
    rw [alone, others, List.append_assoc, List.filter_cons, if_pos (decide_eq_true listed)]
    rfl

theorem damageAll_eq {l : List CellIx} (once : l.Nodup) (s : State) : ∃ cs : Vector CellRec 256,
    damageAll l s = (s.withCells cs).withMend (if s.mship.state = .member then listAll l s.mend else s.mend)
      ∧ ∀ x : CellIx, cs[x] = { s.cells[x] with status := if x ∈ l then .damaged else s.cells[x].status } := by
  induction l generalizing s with
  | nil =>
    refine ⟨s.cells, ?_, fun x => rfl⟩
    have same : listAll [] s.mend = s.mend := congrArg (fun l => ({ s.mend with cells := l } : MendUnit)) (List.append_nil _)
    rw [same, ite_self]
    rfl
  | cons c l ih =>
    obtain ⟨new, once⟩ := List.nodup_cons.1 once
    obtain ⟨cs, eq, cells⟩ := ih once (damageCell c s)
    refine ⟨cs, ?_, fun x => ?_⟩
    · refine Eq.trans (show _ = damageAll l (damageCell c s) from rfl) (eq.trans ?_)
      rw [damageCell, listForMend_eq]
      show (s.withCells cs).withMend
        (if s.mship.state = .member then listAll l (if s.mship.state = .member then _ else _) else _) = _
      by_cases member : s.mship.state = .member
      · rw [if_pos member, if_pos member, if_pos member]
        exact congrArg _ (listAll_cons new s.mend)
      · rw [if_neg member, if_neg member]
        exact congrArg _ (if_neg member)
    · have damaged : (damageCell c s).cells[x] = if x = c then { s.cells[c] with status := .damaged } else s.cells[x] := by
        rw [damageCell, listForMend_eq]
        exact getElem_set_fin _ _ _ _
      rw [cells, damaged]
      by_cases its : x = c
      · rw [if_pos its, its, if_neg new, if_pos (List.mem_cons_self ..)]
      · rw [if_neg its]
        simp only [List.mem_cons, its, false_or]

/-- A verification that damages what fails, and whose outcome for a cell no other cell's damage changes. -/
def Verifies (verify : CellIx → State → State) (fails : State → CellIx → Bool) : Prop :=
  (∀ c s, verify c s = if fails s c = true then damageCell c s else s)
    ∧ ∀ c d s, d ≠ c → fails (damageCell c s) d = fails s d

theorem Verifies.foldl {verify : CellIx → State → State} {fails : State → CellIx → Bool} (its : Verifies verify fails)
    {cs : List CellIx} (once : cs.Nodup) (s : State) :
    cs.foldl (fun s c => verify c s) s = damageAll (cs.filter (fails s)) s := by
  induction cs generalizing s with
  | nil => rfl
  | cons c cs ih =>
    obtain ⟨new, once⟩ := List.nodup_cons.1 once
    rw [List.foldl_cons, ih once, its.1, List.filter_cons]
    split
    · refine congrArg (fun l => damageAll l _) (List.filter_congr fun d mem => its.2 c d s ?_)
      rintro rfl
      exact new mem
    · rfl

theorem damageCell_other {c d : CellIx} (s : State) (other : d ≠ c) : (damageCell c s).cells[d] = s.cells[d] := by
  rw [damageCell, listForMend_eq]
  exact (getElem_set_fin _ _ _ _).trans (if_neg other)

theorem damageCell_mem (c : CellIx) (s : State) : (damageCell c s).mem = s.mem := by
  rw [damageCell, listForMend_eq]
  rfl

/-! ### The host read's verification (R7) -/

/-- The host read of cell c finds it DAMAGED where it was not before. -/
def failsRead (s : State) (c : CellIx) : Bool :=
  decide (s.cells[c].status ≠ .damaged ∧ statusAfterRead s c = .damaged)

/-- A cell whose kept check no longer agrees with its content (R6, R7). -/
def spoilt (s : State) (c : CellIx) : Bool :=
  s.cells[c].upset || decide (cellCheck s.cells[c].version (cellData s.mem c) ≠ s.cells[c].check)

theorem verifies_eq (c : CellIx) (s : State) : verifies c s = !spoilt s c := by
  rw [verifies, spoilt, Bool.not_or, decide_not, Bool.not_not]
  rfl

theorem spoilt_other {c d : CellIx} (s : State) (other : d ≠ c) : spoilt (damageCell c s) d = spoilt s d := by
  unfold spoilt
  rw [damageCell_other s other, damageCell_mem]

/-- A verification where the check is asked. -/
theorem verified_eq (c : CellIx) (s : State) :
    (if verifies c s = true then s else damageCell c s) = if spoilt s c = true then damageCell c s else s := by
  rw [verifies_eq]
  cases spoilt s c <;> rfl

theorem failsRead_eq (s : State) (c : CellIx) : failsRead s c
    = (decide (s.cells[c].status = .present ∨ s.cells[c].status = .stale) && spoilt s c) := by
  have checked : (spoilt s c = true) = (s.cells[c].upset = true
      ∨ cellCheck s.cells[c].version (cellData s.mem c) ≠ s.cells[c].check) := by
    rw [spoilt, Bool.or_eq_true, decide_eq_true_eq]
  rw [failsRead, statusAfterRead]
  simp only [← checked]
  cases s.cells[c].status <;> cases spoilt s c <;> rfl

theorem verifyForHost_verifies : Verifies verifyForHost failsRead := by
  refine ⟨fun c s => ?_, fun c d s other => ?_⟩
  · rw [failsRead_eq, verifyForHost]
    cases its : s.cells[c].status with
    | present => exact verified_eq c s
    | stale => exact verified_eq c s
    | absent => rfl
    | damaged => rfl
  · rw [failsRead_eq, failsRead_eq, damageCell_other s other, spoilt_other s other]

/-- A cell's status after a host read, by whether it fails. -/
theorem statusAfterRead_eq (s : State) (c : CellIx) :
    statusAfterRead s c = if failsRead s c = true then .damaged else s.cells[c].status := by
  by_cases fails : failsRead s c = true
  · rw [if_pos fails]
    exact (of_decide_eq_true fails).2
  · rw [if_neg fails, statusAfterRead]
    split
    · rename_i read
      refine if_neg fun bad => fails ?_
      rw [failsRead_eq, decide_eq_true read, spoilt, Bool.true_and, Bool.or_eq_true, decide_eq_true_eq]
      exact bad
    · rfl

/-! ### The mend that begins with the cells damaged (R118, R119, R127) -/

theorem beginMend_quiet {s : State} (quiet : s.mend.current = none → s.mend.cells = []) : beginMend s = s := by
  by_cases idle : s.mend.current = none
  · refine beginMend_empty (?_ : s.mend = { cells := [], current := none })
    rw [← quiet idle, ← idle]
  · exact if_neg fun h => idle h.2

/-- With no station to ask, each cell is lost at once, its notice posted in the order of the list. -/
theorem beginFrom_lost {l : List CellIx} {s : State} (left : NoneLeft s 0)
    (room : s.port.notices.length + reserved s.port + l.length ≤ 32) : beginFrom l s =
      (s.withPort { s.port with notices := s.port.notices ++ l.map .cellLost }).withMend
        { cells := [], current := none } := by
  induction l generalizing s with
  | nil =>
    rw [beginFrom, List.map_nil, List.append_nil]
    rfl
  | cons c rest ih =>
    rw [List.length_cons] at room
    have posted : postNotice (.cellLost c) s = s.withPort { s.port with notices := s.port.notices ++ [.cellLost c] } :=
      postNotice_room (roomFree_true (by omega))
    rw [beginFrom, firstResponder_left c left, posted]
    refine (ih (s := s.withPort { s.port with notices := s.port.notices ++ [.cellLost c] }) left ?_).trans ?_
    · show (s.port.notices ++ [Notice.cellLost c]).length + reserved s.port + rest.length ≤ 32
      rw [List.length_append, List.length_singleton]
      omega
    · show (s.withPort { s.port with notices := s.port.notices ++ [.cellLost c] ++ rest.map .cellLost }).withMend _ = _
      rw [List.append_assoc]
      rfl

/-- What the Mend Unit makes of cells of l damaged at s and a mend then begun: the port p, the unit m, the MEND slot t. -/
structure Handed (l : List CellIx) (s : State) (p : HostPort) (m : MendUnit) (t : Option MendEntry) : Prop where
  grown : Grown s.port p
  quiet : l = [] ∨ s.mship.state ≠ .member → (s.mend.current = none → s.mend.cells = []) ∨ s.mship.state ≠ .member →
    p = s.port ∧ m = s.mend ∧ t = s.tx.mend
  joins : s.mship.state = .member → s.mend.current ≠ none → p = s.port ∧ m = listAll l s.mend ∧ t = s.tx.mend
  asks : s.mship.state = .member → s.mend = { cells := [], current := none } → ∀ c rest x, l = c :: rest → FirstAsked s c x →
    p = s.port ∧ m = { cells := l, current := some { responder := x, tried := flagSet 0 x, window := none } }
      ∧ t = some { responder := x, cell := c }
  loses : s.mship.state = .member → s.mend = { cells := [], current := none } → NoneLeft s 0 →
    s.port.notices.length + reserved s.port + l.length ≤ 32 →
    p = { s.port with notices := s.port.notices ++ l.map .cellLost } ∧ m = { cells := [], current := none } ∧ t = s.tx.mend

theorem listAll_nil (m : MendUnit) : listAll [] m = m :=
  congrArg (fun l => ({ m with cells := l } : MendUnit)) (List.append_nil _)

theorem listAll_empty (l : List CellIx) :
    listAll l { cells := [], current := none } = { cells := l, current := none } := by
  unfold listAll
  simp

/-- The state with these cells, port, Mend Unit and MEND slot. -/
def handedOver (s : State) (cs : Vector CellRec 256) (p : HostPort) (m : MendUnit) (t : Option MendEntry) : State :=
  (((s.withCells cs).withPort p).withMend m).withTx { s.tx with mend := t }

theorem handedOver_inj {s : State} {cs : Vector CellRec 256} {p p' : HostPort} {m m' : MendUnit} {t t' : Option MendEntry}
    (same : handedOver s cs p m t = handedOver s cs p' m' t') : p = p' ∧ m = m' ∧ t = t' :=
  ⟨congrArg State.port same, congrArg State.mend same, congrArg (fun w => w.tx.mend) same⟩

theorem damageAll_handed {l : List CellIx} (once : l.Nodup) (s : State) : ∃ (cs : Vector CellRec 256) (p : HostPort)
    (m : MendUnit) (t : Option MendEntry),
    beginMend (damageAll l s) = handedOver s cs p m t
      ∧ (∀ x : CellIx, cs[x] = { s.cells[x] with status := if x ∈ l then .damaged else s.cells[x].status })
      ∧ Handed l s p m t := by
  obtain ⟨cs, eq, cells⟩ := damageAll_eq once s
  by_cases member : s.mship.state = .member
  · rw [if_pos member] at eq
    by_cases idle : s.mend.current = none
    · obtain ⟨p, m, t, begun, grown, -⟩ := beginMend_grown (damageAll l s)
      rw [eq] at begun grown
      have made : ∀ {p' m' t'}, beginMend ((s.withCells cs).withMend (listAll l s.mend)) = handedOver s cs p' m' t' →
          p = p' ∧ m = m' ∧ t = t' := fun other => handedOver_inj (begun.symm.trans other)
      rw [eq]
      refine ⟨cs, p, m, t, begun, cells, grown, fun none list => made ?_, fun _ busy => absurd idle busy,
        fun _ empty c rest x its first => made ?_, fun _ empty left room => made ?_⟩
      · rw [none.resolve_right (not_not_intro member), listAll_nil]
        exact beginMend_quiet (list.resolve_right (not_not_intro member))
      · rw [empty, listAll_empty, its]
        exact beginMend_first (s := (s.withCells cs).withMend { cells := c :: rest, current := Option.none }) member rfl
          (firstAsked_of (s := s) rfl rfl (fun _ => rfl) first)
      · rw [empty, listAll_empty, beginMend, if_pos ⟨member, rfl⟩]
        exact beginFrom_lost (s := (s.withCells cs).withMend { cells := l, current := none }) left room
    · have same : beginMend (damageAll l s) = damageAll l s := by
        rw [eq]
        exact if_neg fun h => idle h.2
      refine ⟨cs, s.port, listAll l s.mend, s.tx.mend, same.trans eq, cells, .refl _, fun none _ => ?_, fun _ _ =>
        ⟨rfl, rfl, rfl⟩,
        fun _ its => absurd (its ▸ rfl) idle, fun _ its => absurd (its ▸ rfl) idle⟩
      rw [none.resolve_right (not_not_intro member), listAll_nil]
      exact ⟨rfl, rfl, rfl⟩
  · rw [if_neg member] at eq
    have same : beginMend (damageAll l s) = damageAll l s := by
      rw [eq]
      exact if_neg fun h => member h.1
    exact ⟨cs, s.port, s.mend, s.tx.mend, same.trans eq, cells, .refl _, fun _ _ => ⟨rfl, rfl, rfl⟩,
      fun its => absurd its member, fun its => absurd its member, fun its => absurd its member⟩

/-! ### READ_CELLS -/

theorem cellsArg_good {f n : Byte}
    (good : (1 ≤ n.toNat ∧ n.toNat ≤ 16) ∧ f.toNat / 16 = (f.toNat + n.toNat - 1) / 16) :
    cellsArg [f, n] = some ((List.finRange 256).filter fun c => decide (f.toNat ≤ c.val ∧ c.val < f.toNat + n.toNat)) := by
  obtain ⟨⟨few, many⟩, row⟩ := good
  refine (if_pos ⟨few, many, row⟩).trans (congrArg some ?_)
  have low := f.isLt
  generalize f.toNat = a at *
  generalize n.toNat = b at *
  have top : a + b ≤ 256 := by omega
  refine List.Pairwise.eq_of_mem_iff (r := (· < ·)) ?_ ((List.pairwise_lt_finRange 256).filter _) fun c => ?_
  · rw [List.pairwise_map]
    refine List.pairwise_lt_range.imp_of_mem fun {i j} mi mj before => ?_
    rw [List.mem_range] at mi mj
    rw [Fin.lt_def, Fin.val_ofNat, Fin.val_ofNat, Nat.mod_eq_of_lt (by omega), Nat.mod_eq_of_lt (by omega)]
    omega
  · rw [List.mem_map, List.mem_filter, decide_eq_true_eq]
    constructor
    · rintro ⟨i, mem, rfl⟩
      rw [List.mem_range] at mem
      rw [Fin.val_ofNat, Nat.mod_eq_of_lt (by omega)]
      exact ⟨List.mem_finRange _, by omega⟩
    · rintro ⟨-, least, most⟩
      refine ⟨c.val - a, List.mem_range.2 (by omega), Fin.ext ?_⟩
      rw [Fin.val_ofNat, Nat.mod_eq_of_lt (by omega)]
      omega

theorem cellResult_eq (s : State) (c : CellIx) : cellResult s c = cellBytes s c s.cells[c].status := by
  unfold cellResult cellBytes
  dsimp only
  cases s.cells[c].status <;> rfl

theorem cellsArg_bad {f n : Byte}
    (bad : ¬ ((1 ≤ n.toNat ∧ n.toNat ≤ 16) ∧ f.toNat / 16 = (f.toNat + n.toNat - 1) / 16)) : cellsArg [f, n] = none :=
  if_neg fun good => bad ⟨⟨good.1, good.2.1⟩, good.2.2⟩

end Sys2Proof.Machine

namespace Sys2Proof

open Sys2Proof.Machine Sys2Proof.Safety

/-- Settles O18: the cells verified in index order, what fails handed over, the response read from what is left. -/
theorem readCellsVerifies : Obligations.ReadCellsVerifies := by
  intro s f n hand good inRange read failing
  refine ⟨fun bad => ?_, fun well => ?_⟩
  · rw [exec_readCells hand, doReadCells, cellsArg_bad bad]
    rfl
  · have once : read.Nodup := (List.nodup_finRange 256).filter _
    have read_iff : ∀ c : CellIx, c ∈ read ↔ inRange c := fun c => by
      rw [List.mem_filter, decide_eq_true_eq]
      exact ⟨fun h => h.2, fun h => ⟨List.mem_finRange c, h⟩⟩
    have verified : read.foldl (fun s c => verifyForHost c s) s = damageAll failing s := verifyForHost_verifies.foldl once s
    obtain ⟨cs, p, m, t, begun, cells, handed⟩ := damageAll_handed (l := failing) (once.filter _) s
    obtain ⟨cs', damaged, cells'⟩ := damageAll_eq (l := failing) (once.filter _) s
    have after : ∀ c ∈ read,
      (if c ∈ failing then CellStatus.damaged else s.cells[c].status) = statusAfterRead s c := fun c mem => by
      rw [statusAfterRead_eq]
      refine if_congr ?_ rfl rfl
      exact ⟨fun its => (List.mem_filter.1 its).2, fun its => List.mem_filter.2 ⟨mem, its⟩⟩
    have body : read.flatMap (cellResult (damageAll failing s))
        = read.flatMap fun c => cellBytes s c (statusAfterRead s c) := by
      refine List.flatMap_congr fun c mem => ?_
      have read_at : (damageAll failing s).cells[c] = { s.cells[c] with status := statusAfterRead s c } := by
        rw [damaged]
        show cs'[c] = _
        rw [cells', after c mem]
      have content : (damageAll failing s).mem = s.mem := by
        rw [damaged]
        rfl
      rw [cellResult_eq, read_at]
      unfold cellBytes
      rw [read_at, content]
    have run : exec .readCells s = .next (answered .ok (read.flatMap fun c => cellBytes s c (statusAfterRead s c))
        (handedOver s cs p m t)) := by
      rw [exec_readCells hand, doReadCells, cellsArg_good well]
      show Host.Outcome.next (respond .ok (read.flatMap (cellResult (read.foldl (fun s c => verifyForHost c s) s)))
        (beginMend (read.foldl (fun s c => verifyForHost c s) s))) = _
      rw [verified, body, begun]
      rfl
    have grown := handed.grown
    refine ⟨_, run, rfl, fun c its => ?_, fun c out => ?_, rfl, rfl, rfl, rfl, rfl, rfl, rfl, rfl, rfl, rfl, grown.tickets,
      grown.order, grown.watch, grown.refusedLast, grown.sdo, grown.notices, rfl, fun outside => ?_, fun member busy => ?_,
      fun member empty => ⟨fun c rest x its first => ?_, fun left room => ?_⟩⟩
    · exact (cells c).trans (by rw [after c ((read_iff c).2 its)])
    · refine (cells c).trans ?_
      rw [if_neg fun mem => out ((read_iff c).1 (List.mem_filter.1 mem).1)]
    · obtain ⟨rfl, rfl, rfl⟩ := handed.quiet (.inr outside) (.inr outside)
      exact ⟨rfl, rfl, rfl⟩
    · obtain ⟨rfl, rfl, rfl⟩ := handed.joins member busy
      exact ⟨rfl, rfl, rfl⟩
    · obtain ⟨rfl, rfl, rfl⟩ := handed.asks member empty c rest x its first
      exact ⟨rfl, rfl, rfl⟩
    · obtain ⟨rfl, rfl, rfl⟩ := handed.loses member empty left room
      exact ⟨rfl, rfl, rfl⟩

end Sys2Proof
end

section
/-! Transmission starts: the moment, the frame built with what its content reads, and the station that begins to send. -/

namespace Sys2Proof.Machine

open Sys2Proof.Safety

/-! ### The moment (R158, R159) -/

/-- The station begins to send: the bus SENDING, the presence timer restarted where it runs (R92, R143). -/
def sends (s : State) : State := restartPresence (busSending s)

theorem offer_passSlots (k : Nat) (s : State) : offer (passSlots k s) = offer s := by
  unfold passSlots
  rfl

/-- When the frame offered may start, slot by slot. -/
theorem startable_passSlots {s : State} {o : Offer} (may : MayStart s) (offered : offer s = some o)
    (permitted : statePermits s.mship.state o = true) (k : Nat) :
    startable (passSlots k s) = if gapSlots (offerGap o) s ≤ s.access.gapCount + k then some o else none := by
  obtain ⟨-, idle, hold, listening⟩ := may
  have gap : gapSlots (offerGap o) (passSlots k s) = gapSlots (offerGap o) s := by
    unfold gapSlots
    split <;> rfl
  have count : (passSlots k s).access.gapCount = s.access.gapCount + k := if_pos idle
  have free : (passSlots k s).bus.state = .idle ∧ (passSlots k s).access.holdOff = none
      ∧ (passSlots k s).mship.listening = true := ⟨idle, by unfold passSlots; rw [hold]; rfl, listening⟩
  rw [startable, if_pos free, offer_passSlots, offered, Option.filter_some, gap, count]
  have state : statePermits (passSlots k s).mship.state o = true := permitted
  rw [state, Bool.true_and]
  split <;> simp_all

/-- The start at its first moment, where the build fills the slot. -/
theorem exec_starts {s : State} {gap slots k : Nat} {o : Offer} (may : MayStart s) (moment : FirstMoment gap slots k s)
    (offered : offer s = some o) (permitted : statePermits s.mship.state o = true) (its : gapSlots (offerGap o) s = gap)
    (filled : (buildOffer o (passSlots k s)).tx.slot.isSome = true) :
    exec (.transmissionStart slots) s = .next (sends (buildOffer o (passSlots k s))) := by
  obtain ⟨first, within, none⟩ := moment
  have at_k : startable (passSlots k s) = some o := by
    rw [startable_passSlots may offered permitted, its]
    exact if_pos (by omega)
  have started : startAfter slots s = startTransmission (passSlots k s) := by
    refine startAfter_first none may.2.2.1 within (fun j before => ?_) (by rw [at_k]; rfl)
    rw [startable_passSlots may offered permitted, its, if_neg (by omega)]
    rfl
  refine (atEvent_free (startAfter slots) may.1).trans (congrArg Host.Outcome.next (started.trans ?_))
  rw [startTransmission, at_k]
  exact if_pos filled

/-! ### What a build reads (R7, R62, R103, R104, R122) -/

/-- A PRESENT cell that its build's verification finds spoilt. -/
def failsBuild (s : State) (c : CellIx) : Bool := decide (s.cells[c].status = .present) && spoilt s c

theorem verifyForBuild_verifies : Verifies verifyForBuild failsBuild := by
  refine ⟨fun c s => ?_, fun c d s other => ?_⟩
  · rw [failsBuild, verifyForBuild]
    cases its : s.cells[c].status with
    | present => exact verified_eq c s
    | stale => rfl
    | absent => rfl
    | damaged => rfl
  · rw [failsBuild, failsBuild, damageCell_other s other, spoilt_other s other]

theorem cellsRead_nodup (b : Body) : (cellsRead b).Nodup := by
  cases b with
  | snapCells t g rs =>
    refine (List.nodup_finRange 8).map fun i j same => ?_
    have := congrArg Fin.val same
    simp only [groupCell] at this
    omega
  | mendReply t c a => exact List.nodup_singleton c
  | _ => exact List.nodup_nil

theorem goodCopy_iff (c : CellIx) (s : State) :
    GoodCopy c s ↔ s.cells[c].status = .present ∧ failsBuild s c = false := by
  unfold GoodCopy failsBuild spoilt
  refine and_congr_right fun present => ?_
  rw [decide_eq_true present, Bool.true_and, Bool.or_eq_false_iff, decide_eq_false_iff_not, not_not]

/-- A cell among those damaged for failing is PRESENT after it just where its copy is good. -/
theorem present_iff {cs : Vector CellRec 256} {l : List CellIx} {s : State} {c : CellIx} (mem : c ∈ l)
    (cells : cs[c] = { s.cells[c] with status := if c ∈ l.filter (failsBuild s) then .damaged else s.cells[c].status }) :
    cs[c].status = .present ↔ GoodCopy c s := by
  rw [cells, goodCopy_iff]
  dsimp only
  by_cases fails : failsBuild s c = true
  · rw [if_pos (List.mem_filter.2 ⟨mem, fails⟩), fails]
    exact iff_of_false nofun fun h => nomatch h.2
  · rw [if_neg fun h => fails (List.mem_filter.1 h).2]
    exact ⟨fun h => ⟨h, Bool.eq_false_iff.2 fails⟩, fun h => h.1⟩

/-- What a build of body b at u reads and hands to the Mend Unit: the body b', the cells, port, Mend Unit and MEND slot. -/
structure Reads (b : Body) (u : State) (b' : Body) (cs : Vector CellRec 256) (p : HostPort) (m : MendUnit)
    (t : Option MendEntry) : Prop where
  made : readContent b u = (b', handedOver u cs p m t)
  read : ReadFrom u b b'
  cells : ∀ x : CellIx, cs[x] = { u.cells[x] with
    status := if x ∈ (cellsRead b).filter (failsBuild u) then .damaged else u.cells[x].status }
  handed : Handed ((cellsRead b).filter (failsBuild u)) u p m t

/-- A body whose cells are not verified leaves the station as it is. -/
theorem reads_plain {b b' : Body} {u : State} (plain : cellsRead b = []) (made : readContent b u = (b', u))
    (read : ReadFrom u b b') : Reads b u b' u.cells u.port u.mend u.tx.mend := by
  have none : (cellsRead b).filter (failsBuild u) = [] := by
    rw [plain]
    rfl
  refine ⟨made, read, fun x => ?_, ?_⟩
  · rw [none, if_neg List.not_mem_nil]
  · rw [none]
    refine ⟨.refl _, fun _ _ => ⟨rfl, rfl, rfl⟩, fun _ _ => ⟨rfl, (listAll_nil _).symm, rfl⟩, fun _ _ => nofun,
      fun _ empty _ _ => ?_⟩
    exact ⟨by rw [List.map_nil, List.append_nil], empty, rfl⟩

/-- What a build of a body that verifies cells of its own reads, its answers read from the cells verified. -/
theorem reads_verified {b b' : Body} {u : State} (made : readContent b u
      = (b', beginMend (damageAll ((cellsRead b).filter (failsBuild u)) u)))
    (read : ReadFrom u b b') : ∃ cs p m t, Reads b u b' cs p m t := by
  obtain ⟨cs, p, m, t, begun, cells, handed⟩ := damageAll_handed ((cellsRead_nodup b).filter (failsBuild u)) u
  exact ⟨cs, p, m, t, made.trans (by rw [begun]), read, cells, handed⟩

/-- A cell among those read, once what fails of them is damaged. -/
theorem damageAll_read {l : List CellIx} (once : l.Nodup) {c : CellIx} (mem : c ∈ l) (u : State) :
    ((damageAll (l.filter (failsBuild u)) u).cells[c].status = .present ↔ GoodCopy c u)
      ∧ (damageAll (l.filter (failsBuild u)) u).cells[c].version = u.cells[c].version
      ∧ (damageAll (l.filter (failsBuild u)) u).mem = u.mem := by
  obtain ⟨cs, eq, cells⟩ := damageAll_eq (once.filter (failsBuild u)) u
  rw [eq]
  exact ⟨present_iff mem (cells c), (congrArg CellRec.version (cells c) :), rfl⟩

theorem snapRecordOf_present {w : State} {c : CellIx} (present : w.cells[c].status = .present) :
    snapRecordOf c w = .present w.cells[c].version (cellData w.mem c) := by
  rw [snapRecordOf, present]

theorem snapRecordOf_missing {w : State} {c : CellIx} (absent : w.cells[c].status ≠ .present) :
    snapRecordOf c w = .missing := by
  unfold snapRecordOf
  split <;> simp_all

theorem mendAnswerOf_present {w : State} {c : CellIx} (present : w.cells[c].status = .present) :
    mendAnswerOf c w = .data w.cells[c].version (cellData w.mem c) := by
  rw [mendAnswerOf, present]

theorem mendAnswerOf_missing {w : State} {c : CellIx} (absent : w.cells[c].status ≠ .present) :
    mendAnswerOf c w = .noCopy := by
  unfold mendAnswerOf
  split <;> simp_all

theorem verifyGroup_damages (t : Station) (g : Group) (rs : Vector SnapRecord 8) (u : State) :
    verifyGroup g u = damageAll ((cellsRead (.snapCells t g rs)).filter (failsBuild u)) u := by
  rw [← verifyForBuild_verifies.foldl (cellsRead_nodup _) u, verifyGroup, cellsRead, List.foldl_map]

/-- The record of a group's cell, once the group is verified. -/
theorem snapRecordOf_read (t : Station) (g : Group) (rs : Vector SnapRecord 8) (u : State) (i : Fin 8) :
    (GoodCopy (groupCell g i) u → snapRecordOf (groupCell g i) (verifyGroup g u)
        = .present u.cells[groupCell g i].version (cellData u.mem (groupCell g i)))
      ∧ (¬ GoodCopy (groupCell g i) u → snapRecordOf (groupCell g i) (verifyGroup g u) = .missing) := by
  have mem : groupCell g i ∈ cellsRead (.snapCells t g rs) := List.mem_map.2 ⟨i, List.mem_finRange i, rfl⟩
  obtain ⟨present, version, content⟩ := damageAll_read (cellsRead_nodup (.snapCells t g rs)) mem u
  rw [← verifyGroup_damages] at present version content
  refine ⟨fun good => ?_, fun bad => snapRecordOf_missing (mt present.1 bad)⟩
  rw [snapRecordOf_present (present.2 good), version, content]

/-- Every build reads as its kind says. -/
theorem readContent_reads (b : Body) (u : State) : ∃ b' cs p m t, Reads b u b' cs p m t := by
  cases b with
  | write w =>
    refine ⟨_, _, _, _, _, reads_plain (b' := .write { w with
      records := w.records.map fun r => { r with version := carriedVersion r.cell u } }) rfl rfl
      ⟨_, rfl, rfl, List.map_map, fun r mem => ?_⟩⟩
    obtain ⟨r, -, rfl⟩ := List.mem_map.1 mem
    refine ⟨fun present => ?_, fun damaged => ?_⟩
    · show carriedVersion r.cell u = _
      rw [carriedVersion, show u.cells[r.cell].status = .present from present]
    · show carriedVersion r.cell u = _
      rw [carriedVersion, show u.cells[r.cell].status = .damaged from damaged]
  | snapState t im => exact ⟨_, _, _, _, _, reads_plain rfl rfl rfl⟩
  | snapCells t g rs =>
    exact ⟨_, reads_verified (by rw [← verifyGroup_damages t g rs u]; exact readContent_snapCells t g rs u)
      ⟨_, rfl, fun i => by rw [getElem_ofFn_fin]; exact snapRecordOf_read t g rs u i⟩⟩
  | mendReply t c a =>
    have verified : verifyForBuild c u = damageAll ((cellsRead (.mendReply t c a)).filter (failsBuild u)) u :=
      verifyForBuild_verifies.foldl (cellsRead_nodup (.mendReply t c a)) u
    refine ⟨_, reads_verified (b' := .mendReply t c (mendAnswerOf c (verifyForBuild c u))) ?_ ⟨_, rfl, ?_⟩⟩
    · rw [← verified]
      rfl
    · rw [verified]
      obtain ⟨present, version, content⟩ := damageAll_read (cellsRead_nodup (.mendReply t c a))
        (List.mem_singleton.2 rfl : c ∈ cellsRead (.mendReply t c a)) u
      refine ⟨fun good => ?_, fun bad => mendAnswerOf_missing (mt present.1 bad)⟩
      rw [mendAnswerOf_present (present.2 good), version, content]
  | _ => exact ⟨_, _, _, _, _, reads_plain rfl rfl rfl⟩

/-! ### The new frame (R164, R166, R167) -/

theorem flag_requiredSet (b : Body) (s : State) (x : Station) : flag (requiredSet b s) x = true ↔
    x ≠ s.straps.number ∧ s.mship.table[x].state ≠ .absent ∧ ∀ r, b ≠ .drop x r := by
  have others : flag (flagsOf fun x => x ≠ self s && isTableSender s.mship.table x) x = true
      ↔ x ≠ s.straps.number ∧ s.mship.table[x].state ≠ .absent := by
    rw [flag_flagsOf, Bool.and_eq_true, decide_eq_true_eq, isTableSender, bne_iff_ne]
    rfl
  unfold requiredSet
  dsimp only
  split
  · rename_i t r
    rw [flag_flagClear, Bool.and_eq_true, others, and_assoc, decide_eq_true_eq]
    refine and_congr_right fun _ => and_congr_right fun _ => ⟨fun other r' its => ?_, fun other its => other r (by rw [its])⟩
    cases its
    exact other rfl
  · rename_i other
    rw [others]
    exact and_congr_right fun _ => (and_iff_left fun r its => other x r its).symm

/-- The slot of a new frame of body b at u. -/
def newSlot (b : Body) (ticket : Option TicketNo) (gap : GapKind) (u : State) : Slot :=
  { frame := { head := { sender := self u, repeated := false, seq := u.tx.seq }, body := b }
    required := requiredSet b u, repeats := 0, heard := false, gap := gap, ticket := ticket
    targetIn := targetInSet b (requiredSet b u) }

theorem newSlot_new {s u : State} (b : Body) (ticket : Option TicketNo) (gap : GapKind) (straps : u.straps = s.straps)
    (table : u.mship.table = s.mship.table) (seq : u.tx.seq = s.tx.seq) :
    NewSlot b ticket gap s (newSlot b ticket gap u) := by
  refine ⟨?_, fun x => ?_, rfl, rfl, rfl, rfl, fun x bytes its => ?_⟩
  · rw [newSlot, self, straps, seq]
  · rw [← straps, ← table]
    exact flag_requiredSet b u x
  · subst its
    rfl

/-- The slot filled and the counter moved on. -/
def filled (sl : Slot) (u : State) : State := u.withTx { u.tx with slot := some sl, seq := u.tx.seq + 1 }

theorem buildNew_reads {b b' : Body} {u : State} {cs : Vector CellRec 256} {p : HostPort} {m : MendUnit}
    {t : Option MendEntry}
    (reads : Reads b u b' cs p m t) (gap : GapKind) :
    buildNew b none gap u = filled (newSlot b' none gap u) (handedOver u cs p m t) := by
  rw [buildNew, reads.made]
  rfl

theorem buildNew_ticket {b b' : Body} {u : State} (plain : readContent b u = (b', u)) {q : TicketNo} {tk : Ticket}
    (used : u.port.tickets[q] = some tk) (live : tk.state ≠ .done) (gap : GapKind) : buildNew b (some q) gap u =
      (filled (newSlot b' (some q) gap u) u).withPort
        { u.port with tickets := u.port.tickets.set q.val (some { tk with state := .sending }) } := by
  rw [buildNew, plain]
  exact advanceTicket_live (s := filled (newSlot b' (some q) gap u) u) used live

theorem Grown.restored {p q : HostPort} (grown : Grown p q) :
    { q with notices := p.notices, noticesDropped := p.noticesDropped } = p := by
  obtain ⟨phase, refused, dropped, tickets, order, notices, watch, sdo⟩ := q
  obtain ⟨its1, its2, its3, its4, its5, its6, -, -⟩ := grown
  dsimp only at its1 its2 its3 its4 its5 its6 ⊢
  rw [its1, its2, its3, its4, its5, its6]

/-- What a build changes beside its frame is what it reads and hands over (R7, R8). -/
theorem reads_buildReads {b b' : Body} {u : State} {cs : Vector CellRec 256} {p : HostPort} {m : MendUnit}
    {t : Option MendEntry} (reads : Reads b u b' cs p m t) (sl : Option Slot) (q : Seq) :
    BuildReads b (sends (u.withTx { u.tx with slot := sl, seq := q }))
      (sends ((handedOver u cs p m t).withTx { (handedOver u cs p m t).tx with slot := sl, seq := q })) := by
  have handed := reads.handed
  refine ⟨fun c => reads.cells c, fun none list => ?_, fun member busy => ?_,
    fun member empty => ⟨fun c rest x its first => ?_, fun left room => ?_⟩, ?_⟩
  · obtain ⟨rfl, rfl, rfl⟩ := handed.quiet none list
    exact ⟨rfl, rfl, rfl⟩
  · obtain ⟨rfl, rfl, rfl⟩ := handed.joins member busy
    exact ⟨rfl, rfl, rfl⟩
  · obtain ⟨rfl, rfl, rfl⟩ := handed.asks member empty c rest x its first
    exact ⟨rfl, rfl, rfl⟩
  · obtain ⟨rfl, rfl, rfl⟩ := handed.loses member empty left room
    exact ⟨rfl, rfl, rfl⟩
  · have port := handed.grown.restored
    exact congrArg (fun p => sends ((u.withPort p).withTx { u.tx with slot := sl, seq := q })) port

/-! ### The station that begins to send -/

theorem sends_passSlots {s : State} (may : MayStart s) (k : Nat) (tx : Transmit) (sponsor : SponsorUnit) (port : HostPort) :
    sends ((((passSlots k s).withTx tx).withSponsor sponsor).withPort port)
      = { begun k s with tx := tx, sponsor := sponsor, port := port } := by
  obtain ⟨-, idle, hold, -⟩ := may
  have began : sends (passSlots k s) = begun k s := by
    have count : (if s.bus.state = .idle then s.access.gapCount + k else s.access.gapCount) = s.access.gapCount + k :=
      if_pos idle
    have presence : timerRestart Config.presenceInterval (timerRun k s.mship.presence) = s.mship.presence.map fun _ =>
      4096 := by
      cases s.mship.presence <;> rfl
    have free : timerRun k s.access.holdOff = s.access.holdOff := by
      rw [hold]
      rfl
    unfold passSlots begun
    simp only [sends, restartPresence, busSending, State.withMship, State.withBus, count, presence, free]
    rfl
  rw [← began]
  rfl

/-- What a build reads stands in its own cells and tables. -/
theorem readFrom_of {s u : State} {b b' : Body} (cells : u.cells = s.cells) (mem : u.mem = s.mem)
    (table : u.mship.table = s.mship.table) (locks : u.locks = s.locks) (read : ReadFrom u b b') : ReadFrom s b b' := by
  unfold ReadFrom GoodCopy at *
  rw [cells, mem, table, locks] at read
  exact read

/-- A frame without a ticket that is offered starts at its first moment, its content read then. -/
theorem startsNew {s : State} {gap slots k : Nat} {o : Offer} {b : Body} {tx : Transmit} {sponsor : SponsorUnit}
    (may : MayStart s) (moment : FirstMoment gap slots k s) (offered : offer s = some o)
    (permitted : statePermits s.mship.state o = true) (its : gapSlots (offerGap o) s = gap) (seq : tx.seq = s.tx.seq)
    (built : buildOffer o (passSlots k s)
      = buildNew b none (offerGap o) ((((passSlots k s).withTx tx).withSponsor sponsor).withPort s.port)) :
    StartsNew slots k b none (offerGap o) s tx sponsor s.port := by
  have began := fun tx' => sends_passSlots may k tx' sponsor s.port
  obtain ⟨b', cs, p, m, t, reads⟩ := readContent_reads b ((((passSlots k s).withTx tx).withSponsor sponsor).withPort s.port)
  have made := buildNew_reads reads (offerGap o)
  have start := exec_starts may moment offered permitted its (by rw [built, made]; rfl)
  rw [built, made] at start
  refine ⟨_, newSlot b' none (offerGap o) ((((passSlots k s).withTx tx).withSponsor sponsor).withPort s.port), b', start,
    ?_, ?_, ?_⟩
  · exact readFrom_of rfl rfl rfl rfl reads.read
  · exact newSlot_new b' none (offerGap o) rfl rfl seq
  · rw [← began, ← seq]
    exact reads_buildReads reads _ _

/-- A build that reads no cell changes nothing beside its frame. -/
theorem buildReads_plain {b : Body} (reads : cellsRead b = []) (w : State) : BuildReads b w w := by
  have none : (cellsRead b).filter (fun c => decide (w.cells[c].status = .present) && (w.cells[c].upset
      || decide (cellCheck w.cells[c].version (cellData w.mem c) ≠ w.cells[c].check))) = [] := by
    rw [reads]
    rfl
  unfold BuildReads
  dsimp only
  rw [none]
  refine ⟨fun c => by rw [if_neg List.not_mem_nil], fun _ _ => ⟨rfl, rfl, rfl⟩,
    fun _ _ => ⟨(listAll_nil _).symm, rfl, rfl⟩, fun _ empty => ⟨fun _ _ _ => nofun, fun _ _ => ?_⟩, rfl⟩
  exact ⟨empty, rfl, by rw [List.map_nil, List.append_nil]⟩

/-- A frame with a live ticket whose content changes nothing at the station starts at its first moment, its ticket SENDING. -/
theorem exec_starts_ticket {s : State} {gap slots k : Nat} {o : Offer} {b b' : Body} {tx : Transmit} {q : TicketNo}
    {tk : Ticket}
    (may : MayStart s) (moment : FirstMoment gap slots k s) (offered : offer s = some o)
    (permitted : statePermits s.mship.state o = true) (its : gapSlots (offerGap o) s = gap)
    (plain : readContent b ((passSlots k s).withTx tx) = (b', (passSlots k s).withTx tx))
    (used : s.port.tickets[q] = some tk) (live : tk.state ≠ .done)
    (built : buildOffer o (passSlots k s) = buildNew b (some q) (offerGap o) ((passSlots k s).withTx tx)) :
    exec (.transmissionStart slots) s = .next { begun k s with
      tx := { tx with slot := some (newSlot b' (some q) (offerGap o) ((passSlots k s).withTx tx)), seq := tx.seq + 1 }
      port := { s.port with tickets := s.port.tickets.set q.val (some { tk with state := .sending }) } } := by
  have made := buildNew_ticket (u := (passSlots k s).withTx tx) plain used live (offerGap o)
  rw [exec_starts may moment offered permitted its (by rw [built, made]; rfl), built, made]
  exact congrArg Host.Outcome.next (sends_passSlots may k
    { tx with slot := some (newSlot b' (some q) (offerGap o) ((passSlots k s).withTx tx)), seq := tx.seq + 1 } s.sponsor
    { s.port with tickets := s.port.tickets.set q.val (some { tk with state := .sending }) })

theorem startsNew_ticket {s : State} {gap slots k : Nat} {o : Offer} {b : Body} {tx : Transmit} {q : TicketNo} {tk : Ticket}
    (may : MayStart s) (moment : FirstMoment gap slots k s) (offered : offer s = some o)
    (permitted : statePermits s.mship.state o = true) (its : gapSlots (offerGap o) s = gap) (seq : tx.seq = s.tx.seq)
    (reads : cellsRead b = []) (plain : ∀ u, readContent b u = (b, u)) (same : ReadFrom s b b)
    (used : s.port.tickets[q] = some tk) (live : tk.state ≠ .done)
    (built : buildOffer o (passSlots k s) = buildNew b (some q) (offerGap o) ((passSlots k s).withTx tx)) :
    StartsNew slots k b (some q) (offerGap o) s tx s.sponsor
      { s.port with tickets := s.port.tickets.set q.val (some { tk with state := .sending }) } := by
  refine ⟨_, newSlot b (some q) (offerGap o) ((passSlots k s).withTx tx), b,
    exec_starts_ticket may moment offered permitted its (plain _) used live built, same,
    newSlot_new (s := s) (u := (passSlots k s).withTx tx) b (some q) (offerGap o) rfl rfl seq, ?_⟩
  rw [← seq]
  exact buildReads_plain reads _

end Sys2Proof.Machine
end

section
/-! What starts at a turn, at the follow-on gap and at the repeat gap (R158, R165). -/

namespace Sys2Proof.Machine

open Sys2Proof.Safety

/-! ### What is offered (R165) -/

theorem offer_again {s : State} {sl : Slot} (slot : s.tx.slot = some sl) : offer s = some (.again sl) := by
  rw [offer, slot]

theorem offer_settlement {s : State} {d : DropEntry} (empty : s.tx.slot = none)
    (due : s.tx.drops.find? (·.cls == .settlement) = some d) : offer s = some (.drop d) := by
  rw [offer, empty]
  dsimp only
  rw [due]

theorem find_settlement_none {drops : List DropEntry} (turns : ∀ d ∈ drops, d.cls = .turn) :
    drops.find? (·.cls == .settlement) = none := by
  refine List.find?_eq_none.2 fun d mem its => ?_
  rw [beq_iff_eq, turns d mem] at its
  cases its

theorem offer_fragment {s : State} {b : Outgoing} (empty : s.tx.slot = none) (turns : ∀ d ∈ s.tx.drops, d.cls = .turn)
    (due : bundleInProgress s = some b) : offer s = some (.fragment b) := by
  rw [offer, empty]
  dsimp only
  rw [find_settlement_none turns]
  dsimp only
  rw [due]

theorem bundleInProgress_none {s : State} (unbegun : ∀ b, s.bundle.outgoing = some b → b.next = 0) :
    bundleInProgress s = none := by
  unfold bundleInProgress
  split
  · refine Option.filter_eq_none_iff.2 fun b its due => ?_
    rw [unbegun b its] at due
    cases due
  · rfl

/-- Nothing goes before what goes at a turn. -/
structure AtTurn (s : State) : Prop where
  slot : s.tx.slot = none
  turns : ∀ d ∈ s.tx.drops, d.cls = .turn
  unbegun : ∀ b, s.bundle.outgoing = some b → b.next = 0

theorem offer_turn {s : State} (turn : AtTurn s) : offer s = (serviceOffer s.tx).orElse fun _ => sharedOffer s := by
  rw [offer, turn.slot]
  dsimp only
  rw [find_settlement_none turn.turns]
  dsimp only
  rw [bundleInProgress_none turn.unbegun]

theorem serviceOffer_drop {t : Transmit} {d : DropEntry} {rest : List DropEntry} (drops : t.drops = d :: rest)
    (its : d.cls = .turn) : serviceOffer t = some (.drop d) := by
  rw [serviceOffer, drops, List.find?_cons_of_pos (by rw [its]; rfl)]

theorem serviceOffer_reply {t : Transmit} {r : ReplyEntry} {rest : List ReplyEntry} (drops : t.drops = [])
    (replies : t.replies = r :: rest) : serviceOffer t = some (.reply r) := by
  rw [serviceOffer, drops, replies, List.find?_nil]

theorem serviceOffer_mend {t : Transmit} {m : MendEntry} (drops : t.drops = []) (replies : t.replies = [])
    (mend : t.mend = some m) : serviceOffer t = some (.mend m) := by
  rw [serviceOffer, drops, replies, mend, List.find?_nil]

theorem serviceOffer_presence {t : Transmit} (drops : t.drops = []) (replies : t.replies = []) (mend : t.mend = none)
    (presence : t.presence = true) : serviceOffer t = some .presence := by
  rw [serviceOffer, drops, replies, mend, presence, List.find?_nil]

/-- The service queue is empty. -/
def NoService (t : Transmit) : Prop := t.drops = [] ∧ t.replies = [] ∧ t.mend = none ∧ t.presence = false

theorem offer_shared {s : State} (turn : AtTurn s) (empty : NoService s.tx) : offer s = sharedOffer s := by
  obtain ⟨drops, replies, mend, presence⟩ := empty
  rw [offer_turn turn, serviceOffer, drops, replies, mend, presence, List.find?_nil]
  rfl

theorem offer_service {s : State} {o : Offer} (turn : AtTurn s) (service : serviceOffer s.tx = some o) :
    offer s = some o := by
  rw [offer_turn turn, service]
  rfl

/-- A MEMBER or LEAVING station sends every frame. -/
theorem permits_group {st : StationState} (group : st = .member ∨ st = .leaving) (o : Offer) : statePermits st o = true := by
  obtain rfl | rfl := group <;> rfl

theorem permits_presence {st : StationState} (state : isHolder st = true ∨ st = .awaitState) :
    statePermits st .presence = true := by
  revert state
  cases st <;> simp [isHolder, statePermits, offersPresence]

/-- The frame that the snapshot's cursor names is built, whatever content its body names before it is read (R102). -/
theorem buildNew_snapshot {j : Station} {s : State} {body : Body}
    (names : (s.sponsor.cursor = 0 ∧ ∃ im, body = .snapState j im)
      ∨ ∃ (g : Group) (rs : Vector SnapRecord 8), s.sponsor.cursor = g.val + 1 ∧ body = .snapCells j g rs) (u : State) :
    buildNew (snapshotBody j s) none .turn u = buildNew body none .turn u := by
  obtain ⟨start, im, rfl⟩ | ⟨g, rs, cursor, rfl⟩ := names
  · rw [snapshotBody, if_pos start]
    rfl
  · have group : Fin.ofNat 32 (s.sponsor.cursor - 1) = g := by
      rw [cursor]
      exact Fin.ext (Nat.mod_eq_of_lt g.isLt)
    rw [snapshotBody, if_neg (by omega), group]
    rfl

/-- The entries of the send list that are built from what they carry. -/
theorem hostBody_kinds {f : SendFrame} {body : Body} (kinds : (∃ r, f = .claim r ∧ body = .claim r)
      ∨ (∃ r, f = .yield r ∧ body = .yield r) ∨ (f = .leave ∧ body = .leave)
      ∨ ∃ t bs, f = .signal t bs ∧ body = .signal t bs) :
    (∀ u, hostBody f u = some body) ∧ (∀ u, readContent body u = (body, u)) ∧ ∀ x r, body ≠ .drop x r := by
  obtain ⟨r, rfl, rfl⟩ | ⟨r, rfl, rfl⟩ | ⟨rfl, rfl⟩ | ⟨t, bs, rfl, rfl⟩ := kinds <;>
    exact ⟨fun _ => rfl, fun _ => rfl, nofun⟩

theorem snapshotWork_some {s : State} {j : Station} {rest : List Station} (joiners : s.sponsor.joiners = j :: rest)
    (more : s.sponsor.cursor < 33) : snapshotWork s = some j := by
  rw [snapshotWork, if_pos more, joiners]
  rfl

theorem sharedOffer_snapshot {s : State} {j : Station} (work : snapshotWork s = some j)
    (next : s.tx.sendList = [] ∨ s.tx.lastSource = .hostList) : sharedOffer s = some (.snapshot j) := by
  rw [sharedOffer, work]
  obtain empty | last := next
  · rw [empty]
  · cases s.tx.sendList with
    | nil => rfl
    | cons e rest => exact if_pos last

theorem sharedOffer_host {s : State} {e : SendEntry} {rest : List SendEntry} (list : s.tx.sendList = e :: rest)
    (next : snapshotWork s = none ∨ s.tx.lastSource = .snapshot) : sharedOffer s = some (.host e) := by
  rw [sharedOffer, list]
  obtain none | last := next
  · rw [none]
  · cases snapshotWork s with
    | none => rfl
    | some j => exact if_neg (by rw [last]; nofun)

theorem snapshotWork_none {s : State} (joiners : s.sponsor.joiners = []) : snapshotWork s = none := by
  rw [snapshotWork, joiners]
  split <;> rfl

/-! ### A presence timer that runs out while the station waits (R92, log 4) -/

theorem expireSilences_none {w : State} (quiet : ∀ x : Station, ranOut w.mship.silence[x] = false) :
    stations.foldl (fun s x => if ranOut s.mship.silence[x] then expireSilence x s else s) w = w := by
  generalize stations = l
  induction l with
  | nil => rfl
  | cons x l ih =>
    rw [List.foldl_cons, if_neg (by rw [quiet x]; exact Bool.false_ne_true)]
    exact ih

/-- The presence timer alone has run out. -/
theorem dueExpiries_presence {w : State} {v : Nat} (listen : ranOut w.mship.listen = false)
    (hold : ranOut w.access.holdOff = false)
    (silence : ∀ x : Station, ranOut w.mship.silence[x] = false) (out : ranOut w.mship.presence = true)
    (runs : w.mship.presence = some v) (window : w.mend.current.any (fun m => ranOut m.window) = false) :
    dueExpiries w = startPresence (w.withTx { w.tx with presence := true }) := by
  have expired : expirePresence w = startPresence (w.withTx { w.tx with presence := true }) := by
    rw [expirePresence, runs]
  rw [dueExpiries, listen, if_neg Bool.false_ne_true]
  dsimp only
  rw [hold, if_neg Bool.false_ne_true, expireSilences_none silence, out, if_pos rfl, expired]
  exact if_neg (by rw [show (startPresence (w.withTx { w.tx with presence := true })).mend = w.mend from rfl, window]; nofun)

/-- The station v slots on, its presence timer having run out then: the PRESENCE queued and the timer restarted. -/
def presenceQueued (v : Nat) (s : State) : State :=
  startPresence ((passSlots v s).withTx { s.tx with presence := true })

theorem passSlots_presenceQueued (i v : Nat) (s : State) : passSlots i (presenceQueued v s)
    = ((passSlots (v + i) s).withMship { (passSlots (v + i) s).mship with presence := timerRun i (some 4096) }).withTx
        { s.tx with presence := true } := by
  rw [← passSlots_add]
  rfl

/-- No other timer of the station runs out within k slots. -/
def OthersRun (k : Nat) (s : State) : Prop := NoneRunsOut k { s with mship := { s.mship with presence := none } }

theorem slotPasses_presence {s : State} {v k : Nat} (others : OthersRun k s) (hold : s.access.holdOff = none)
    (runs : s.mship.presence = some v) (first : 1 ≤ v) (within : v ≤ k) :
    (∀ j < v, slotPasses^[j] s = passSlots j s) ∧ slotPasses^[v] s = presenceQueued v s := by
  obtain ⟨silence, -, listen, window⟩ := others
  have before : NoneRunsOut (v - 1) s := by
    refine ⟨fun x w its => lt_of_le_of_lt (by omega) (silence x w its), fun w its => ?_,
      fun w its => lt_of_le_of_lt (by omega) (listen w its), fun m w its its' =>
        lt_of_le_of_lt (by omega) (window m w its its')⟩
    obtain rfl := Option.some.inj (runs.symm.trans its)
    omega
  have passed := slotPasses_iterate before hold
  refine ⟨fun j less => passed j (by omega), ?_⟩
  obtain ⟨n, rfl⟩ : ∃ n, v = n + 1 := ⟨v - 1, by omega⟩
  rw [Function.iterate_succ_apply', passed n (by omega), slotPasses, passSlots_add]
  refine (dueExpiries_presence (v := 0) (not_ranOut_timerRun fun w its => ?_) ?_ (fun x => ?_) ?_ ?_ ?_).trans rfl
  · exact lt_of_le_of_lt within (listen w its)
  · unfold passSlots
    rw [hold]
    rfl
  · have run := not_ranOut_timerRun (k := n + 1) (t := s.mship.silence[x]) fun w its =>
      lt_of_le_of_lt within (silence x w its)
    simpa [passSlots] using run
  · unfold passSlots
    rw [runs]
    simp [ranOut, timerRun]
  · unfold passSlots
    rw [runs]
    simp [timerRun]
  · cases its : s.mend.current with
    | none => simp [passSlots, its]
    | some m =>
      have run := not_ranOut_timerRun (k := n + 1) (t := m.window) fun w its' => lt_of_le_of_lt within (window m w its its')
      simpa [passSlots, its] using run

theorem othersRun_after {s : State} {v k : Nat} (others : OthersRun k s) (within : v ≤ k) (short : k - v < 4096) :
    NoneRunsOut (k - v) (presenceQueued v s) := by
  obtain ⟨silence, -, listen, window⟩ := others
  have left : ∀ {t : Option Nat} {w}, timerRun v t = some w → (∀ u, t = some u → k < u) → k - v < w := fun its runs => by
    obtain ⟨u, stood, rfl⟩ := Option.map_eq_some_iff.1 its
    have := runs u stood
    omega
  refine ⟨fun x w its => ?_, fun w its => ?_, fun w its => left its listen, fun m w its its' => ?_⟩
  · exact left ((getElem_map_fin _ _ _).symm.trans its) (silence x)
  · obtain rfl := Option.some.inj its
    exact short
  · obtain ⟨m', stood, rfl⟩ := Option.map_eq_some_iff.1 its
    exact left its' (window m' · stood)

/-- With nothing else offered, the PRESENCE starts at the first moment after its timer has run out that its gap allows. -/
theorem startAfter_presence {s : State} {slots k v : Nat} (may : MayStart s) (nothing : offer s = none)
    (due : offer (presenceQueued v s) = some .presence) (permitted : statePermits s.mship.state .presence = true)
    (runs : s.mship.presence = some v) (first : 1 ≤ v)
    (moment : k = max v (turnGap s.straps.number s.access.reference - s.access.gapCount)) (le : k ≤ slots)
    (short : turnGap s.straps.number s.access.reference < 4096) (others : OthersRun k s) :
    startAfter slots s = sends (buildOffer .presence (passSlots (k - v) (presenceQueued v s))) := by
  have within : v ≤ k := by omega
  obtain ⟨free, idle, hold, listening⟩ := may
  obtain ⟨before, at_v⟩ := slotPasses_presence others hold runs first within
  have held : (presenceQueued v s).access.holdOff = none := by
    show timerRun v s.access.holdOff = none
    rw [hold]
    rfl
  have count : (presenceQueued v s).access.gapCount = s.access.gapCount + v := if_pos idle
  have gap : gapSlots (offerGap .presence) (presenceQueued v s) = turnGap s.straps.number s.access.reference := rfl
  have after := slotPasses_iterate (othersRun_after others within (by omega)) held
  have later : ∀ i, v ≤ i → i ≤ k → slotPasses^[i] s = passSlots (i - v) (presenceQueued v s) := fun i from_v to_k => by
    rw [show i = (i - v) + v by omega, Function.iterate_add_apply, at_v, after _ (by omega), Nat.add_sub_cancel]
  have ready : ∀ i, startable (passSlots i (presenceQueued v s))
      = if turnGap s.straps.number s.access.reference ≤ s.access.gapCount + v + i then some .presence else none := fun i => by
    rw [startable_passSlots (s := presenceQueued v s) ⟨free, idle, held, listening⟩ due permitted, gap, count]
  have now : startable (passSlots (k - v) (presenceQueued v s)) = some .presence := (ready (k - v)).trans (if_pos (by omega))
  have started : startWithin slots s = some (startTransmission (passSlots (k - v) (presenceQueued v s))) := by
    refine startWithin_eq_some.2 ⟨k, le, ?_, fun i less => ?_⟩
    · rw [later k within le_rfl, startNow, now]
      rfl
    · by_cases early : i < v
      · have never : startable (passSlots i s) = none := by
          unfold startable
          rw [offer_passSlots, nothing]
          split <;> rfl
        rw [before i early, startNow, never]
        rfl
      · have never : startable (passSlots (i - v) (presenceQueued v s)) = none := (ready (i - v)).trans (if_neg (by omega))
        rw [later i (by omega) less.le, startNow, never]
        rfl
  rw [startAfter, started, Option.getD_some, startTransmission, now]
  rfl

theorem sends_presence {w : State} {q p : Nat} (runs : w.mship.presence = some q) (tx : Transmit) :
    sends ((w.withMship { w.mship with presence := some p }).withTx tx) = sends (w.withTx tx) := by
  have restarted : timerRestart Config.presenceInterval w.mship.presence
      = timerRestart Config.presenceInterval (some p) := by
    rw [runs]
    rfl
  simp only [sends, restartPresence, busSending, State.withMship, State.withTx, State.withBus, restarted]

/-! ### A slot of an empty queue (log 4) -/

/-- What no slot that passes touches: the straps, the bus, the port's phase and the send list. -/
structure Waits (s w : State) : Prop where
  straps : w.straps = s.straps
  bus : w.bus = s.bus
  phase : w.port.phase = s.port.phase
  sendList : w.tx.sendList = s.tx.sendList

theorem Waits.refl (s : State) : Waits s s := ⟨rfl, rfl, rfl, rfl⟩

theorem Waits.trans {s w v : State} (h : Waits s w) (k : Waits w v) : Waits s v :=
  ⟨k.straps.trans h.straps, k.bus.trans h.bus, k.phase.trans h.phase, k.sendList.trans h.sendList⟩

theorem Waits.free {s w : State} (waits : Waits s w) (free : NoneInHand s) : NoneInHand w := by
  refine ⟨?_, fun rq hand => free.2 rq (waits.phase ▸ hand)⟩
  rw [Running, waits.straps]
  exact free.1

theorem waits_postNotice (n : Notice) (s : State) : Waits s (postNotice n s) := by
  obtain ⟨p, posted, -⟩ := postNotice_changes n s
  have grown := postNotice_grown n s
  rw [posted] at grown ⊢
  exact ⟨rfl, rfl, grown.phase, rfl⟩

theorem waits_beginMend (s : State) : Waits s (beginMend s) := by
  obtain ⟨p, m, t, begun, grown, -⟩ := beginMend_grown s
  rw [begun]
  exact ⟨rfl, rfl, grown.phase, rfl⟩

theorem waits_attemptMend (s : State) : Waits s (attemptMend s) := by
  unfold attemptMend
  split
  · split
    · split
      · exact ⟨rfl, rfl, rfl, rfl⟩
      · have ended : Waits s (endMend s) := ⟨rfl, rfl, rfl, rfl⟩
        exact (ended.trans (waits_postNotice _ _)).trans (waits_beginMend _)
    · exact ⟨rfl, rfl, rfl, rfl⟩
  · exact .refl s

theorem waits_expireListen (s : State) : Waits s (expireListen s) := by
  unfold expireListen
  split <;> exact ⟨rfl, rfl, rfl, rfl⟩

theorem waits_expireHoldOff (s : State) : Waits s (expireHoldOff s) := by
  unfold expireHoldOff
  split <;> exact ⟨rfl, rfl, rfl, rfl⟩

theorem waits_expirePresence (s : State) : Waits s (expirePresence s) := by
  unfold expirePresence
  split <;> exact ⟨rfl, rfl, rfl, rfl⟩

theorem waits_expireSilence (x : Station) (s : State) : Waits s (expireSilence x s) := by
  unfold expireSilence
  split
  · dsimp only
    split <;> exact ⟨rfl, rfl, rfl, rfl⟩
  · exact .refl s

theorem waits_expireMendWindow (s : State) : Waits s (expireMendWindow s) := by
  unfold expireMendWindow
  split
  · split
    · exact waits_attemptMend s
    · exact .refl s
  · exact .refl s

theorem waits_ite {p : Prop} [Decidable p] {f : State → State} (expires : ∀ s, Waits s (f s)) (s : State) :
    Waits s (if p then f s else s) := by
  split
  · exact expires s
  · exact .refl s

theorem waits_expireSilences (s : State) :
    Waits s (stations.foldl (fun s x => if ranOut s.mship.silence[x] then expireSilence x s else s) s) := by
  generalize stations = l
  induction l generalizing s with
  | nil => exact .refl s
  | cons x l ih => exact (waits_ite (waits_expireSilence x) s).trans (ih _)

theorem waits_slotPasses (s : State) : Waits s (slotPasses s) := by
  have passed : Waits s (passSlots 1 s) := ⟨rfl, rfl, rfl, rfl⟩
  refine passed.trans ?_
  show Waits _ (dueExpiries (passSlots 1 s))
  unfold dueExpiries
  exact ((((waits_ite waits_expireListen _).trans (waits_ite waits_expireHoldOff _)).trans (waits_expireSilences _)).trans
    (waits_ite waits_expirePresence _)).trans (waits_ite waits_expireMendWindow _)

theorem buildNew_filled (b : Body) (ticket : Option TicketNo) (gap : GapKind) (u : State) :
    (buildNew b ticket gap u).tx.slot.isSome = true := by
  unfold buildNew
  generalize readContent b u = r
  obtain ⟨b', u'⟩ := r
  dsimp only
  split
  · unfold advanceTicket
    split
    · split <;> rfl
    · rfl
  · rfl

/-- What is offered fills the slot, or it is a COMMIT with no bundle, which leaves the send list. -/
theorem buildOffer_fills {o : Offer} {s : State} (offered : Offered o s) :
    (buildOffer o s).tx.slot.isSome = true ∨ (buildOffer o s).tx.sendList ≠ s.tx.sendList := by
  cases o with
  | again sl =>
    show (buildAgain sl s).tx.slot.isSome = true ∨ _
    unfold buildAgain
    split <;> exact .inl rfl
  | host e =>
    obtain ⟨rest, list⟩ := offered
    cases body : hostBody e.frame s with
    | some b =>
      rw [buildOffer_host_some body]
      exact .inl (buildNew_filled _ _ _ _)
    | none =>
      rw [buildOffer_host_none body]
      refine .inr fun same => ?_
      have shorter := congrArg List.length same
      simp [State.withTx, list] at shorter
  | _ => exact .inl (buildNew_filled _ _ _ _)

/-- A start makes the bus SENDING, or takes an entry off the send list. -/
theorem startNow_sends {s t : State} (started : startNow s = some t) :
    t.bus.state = .sending ∨ t.tx.sendList ≠ s.tx.sendList := by
  unfold startNow at started
  split at started
  · obtain rfl := Option.some.inj started
    unfold startTransmission
    split
    · rename_i o its
      unfold startable at its
      split at its
      · obtain ⟨offered, -⟩ := Option.filter_eq_some_iff.1 its
        have fills := buildOffer_fills (offered_of_offer offered)
        dsimp only
        split
        · exact .inl rfl
        · rename_i empty
          exact .inr (fills.resolve_left empty)
      · cases its
    · rename_i some _ empty
      rw [empty] at some
      cases some
  · cases started

theorem startWithin_succ (k : Nat) (s : State) :
    startWithin (k + 1) s = (startNow s).orElse fun _ => startWithin k (slotPasses s) := rfl

theorem startWithin_mono {j k : Nat} {s t : State} (le : j ≤ k) (started : startWithin j s = some t) :
    startWithin k s = some t := by
  obtain ⟨i, within, start, before⟩ := startWithin_eq_some.1 started
  exact startWithin_eq_some.2 ⟨i, within.trans le, start, before⟩

end Sys2Proof.Machine

namespace Sys2Proof

open Sys2Proof.Machine Sys2Proof.Safety

/-- Settles O33: row by row of R165. -/
theorem startsTurnFrame : Obligations.StartsTurnFrame := by
  refine ⟨?_, ?_, ?_⟩
  · intro s slots k may slot turns unbegun moment groupSender noService
    have turn : AtTurn s := ⟨slot, turns, unbegun⟩
    refine ⟨fun e rest q tk body group none joiners list ticket used live kinds => ?_, fun d rest group drops => ?_,
      fun r rest group drops replies => ?_, fun m group drops replies mend => ?_,
      fun group drops replies mend presence => ?_, fun j rest body group none joiners next names => ?_,
      fun j js e rest q tk r group none joiners next list its used live => ?_,
      fun sent none joiners => ⟨fun q tk list used live => ?_, fun list => ?_⟩⟩
    · have offered := (offer_shared turn none).trans (sharedOffer_host list (.inl (snapshotWork_none joiners)))
      have tail : s.tx.sendList.tail = rest := by rw [list, List.tail_cons]
      obtain ⟨named, plain, noDrop⟩ := hostBody_kinds kinds
      have start := exec_starts_ticket (o := .host e) (tx := { s.tx with sendList := rest, lastSource := .hostList })
        (b := body)
        may moment offered (permits_group group _) rfl (plain _) used live (by
          rw [buildOffer_host_some (named _), ticket, ← tail]
          rfl)
      refine ⟨_, _, start, rfl, rfl, fun x => ?_, rfl, rfl, rfl,
        fun x bs its => by subst its; rfl, rfl, rfl, rfl, rfl, rfl, rfl,
        rfl, rfl, rfl, rfl, rfl, rfl, rfl, rfl, rfl, rfl⟩
      rw [Bool.eq_iff_iff, decide_eq_true_eq]
      refine (flag_requiredSet body
        ((passSlots k s).withTx { s.tx with sendList := rest, lastSource := .hostList }) x).trans ?_
      exact and_congr_right fun _ => and_iff_left (noDrop x)
    · have its : d.cls = .turn := turns d (by rw [drops]; exact List.mem_cons_self ..)
      have gap : offerGap (.drop d) = .turn := if_neg (by rw [its]; nofun)
      rw [← gap]
      refine startsNew may moment (offer_service turn (serviceOffer_drop drops its)) (permits_group group _)
        (by rw [gap]; rfl)
        rfl ?_
      have erased : s.tx.drops.erase d = rest := by rw [drops, List.erase_cons_head]
      rw [← erased]
      rfl
    · refine startsNew (o := .reply r) may moment (offer_service turn (serviceOffer_reply drops replies))
        (permits_group group _) rfl rfl ?_
      have tail : s.tx.replies.tail = rest := by rw [replies, List.tail_cons]
      rw [← tail]
      rfl
    · exact startsNew (o := .mend m) may moment (offer_service turn (serviceOffer_mend drops replies mend))
        (permits_group group _) rfl rfl rfl
    · exact startsNew (o := .presence) may moment (offer_service turn (serviceOffer_presence drops replies mend presence))
        (permits_presence group) rfl rfl rfl
    · have more : s.sponsor.cursor < 33 := by
        obtain ⟨start, -⟩ | ⟨g, -, cursor, -⟩ := names <;> omega
      have offered := (offer_shared turn none).trans (sharedOffer_snapshot (snapshotWork_some joiners more) next)
      refine startsNew (o := .snapshot j) may moment offered (permits_group group _) rfl rfl ?_
      exact buildNew_snapshot (s := passSlots k s) names _
    · have idle : snapshotWork s = Option.none ∨ s.tx.lastSource = .snapshot := by
        refine next.imp_left fun cursor => ?_
        rw [snapshotWork, if_neg (by omega)]
      have offered := (offer_shared turn none).trans (sharedOffer_host list idle)
      have tail : s.tx.sendList.tail = rest := by rw [list, List.tail_cons]
      subst its
      refine startsNew_ticket (o := .host { ticket := some q, frame := .claim r }) may moment offered (permits_group group _)
        rfl rfl rfl (fun _ => rfl) rfl used live ?_
      rw [← tail]
      rfl
    · have offered := (offer_shared turn none).trans (sharedOffer_host list (.inl (snapshotWork_none joiners)))
      refine startsNew_ticket (o := .host { ticket := some q, frame := .join }) may moment offered (by rw [sent]; rfl)
        rfl rfl rfl (fun _ => rfl) rfl used live ?_
      have tail : s.tx.sendList.tail = [] := by rw [list, List.tail_cons]
      rw [← tail]
      rfl
    · have offered := (offer_shared turn none).trans (sharedOffer_host list (.inl (snapshotWork_none joiners)))
      refine startsNew (o := .host { ticket := Option.none, frame := .join }) may moment offered
        (by rw [sent]; rfl) rfl rfl ?_
      have tail : s.tx.sendList.tail = [] := by rw [list, List.tail_cons]
      rw [← tail]
      rfl
  · intro s slots k v may state slot drops replies mend presence list joiners unbegun runs first moment le others
    have turn : AtTurn s := ⟨slot, by rw [drops]; exact nofun, unbegun⟩
    have nothing : offer s = none := by
      rw [offer_shared turn ⟨drops, replies, mend, presence⟩, sharedOffer, snapshotWork_none joiners, list]
    have due : offer (presenceQueued v s) = some .presence :=
      offer_service (s := presenceQueued v s)
        ⟨slot, by rw [show (presenceQueued v s).tx.drops = s.tx.drops from rfl, drops]; exact nofun,
        unbegun⟩ (serviceOffer_presence drops replies mend rfl)
    have short : turnGap s.straps.number s.access.reference < 4096 := by
      have short := turnPosition_lt s.straps.number s.access.reference
      unfold turnGap
      omega
    have within : v ≤ k := by omega
    have slots_on : v + (k - v) = k := by omega
    have running : (passSlots k s).mship.presence = some (v - k) := by
      show timerRun k s.mship.presence = _
      rw [runs]
      rfl
    have start := startAfter_presence may nothing due (permits_presence state) runs first moment le short others
    rw [passSlots_presenceQueued, slots_on] at start
    have unqueued : { s.tx with presence := false } = s.tx := by rw [← presence]
    have began : startAfter slots s = { begun k s with
        tx := { s.tx with slot := some (newSlot .presence none .turn ((passSlots k s).withTx s.tx)), seq := s.tx.seq + 1 }
        sponsor := s.sponsor, port := s.port } := by
      rw [← sends_passSlots may k _ s.sponsor s.port]
      refine start.trans ?_
      have built : sends (buildOffer .presence (((passSlots k s).withMship { (passSlots k s).mship with
            presence := timerRun (k - v) (some 4096) }).withTx { s.tx with presence := true }))
          = sends (((passSlots k s).withMship { (passSlots k s).mship with presence := some (4096 - (k - v)) }).withTx
            { ({ s.tx with presence := false } : Transmit) with
              slot := some (newSlot .presence none .turn ((passSlots k s).withTx s.tx)), seq := s.tx.seq + 1 }) := rfl
      rw [built, unqueued]
      exact sends_presence running _
    refine ⟨_, _, .presence, (atEvent_free (startAfter slots) may.1).trans (congrArg Host.Outcome.next began), rfl,
      newSlot_new (u := (passSlots k s).withTx s.tx) .presence none .turn rfl rfl rfl, buildReads_plain rfl _⟩
  · intro s t slots free empty idle stepped
    have tick : t = (startWithin 1 s).getD (slotPasses s) := by
      rw [step, empty, tick, free.1, carryOut_free free.2] at stepped
      exact (Host.Outcome.next.inj stepped).symm
    have passes := waits_slotPasses s
    have run := atEvent_free (startAfter (slots + 1)) free
    refine ⟨fun sending => run.trans (congrArg Host.Outcome.next ?_), fun u silent list start sending =>
      run.trans (congrArg Host.Outcome.next ?_)⟩
    · cases started : startWithin 1 s with
      | some t' =>
        rw [started, Option.getD_some] at tick
        rw [startAfter, startWithin_mono (Nat.le_add_left 1 slots) started, tick]
        rfl
      | none =>
        rw [started, Option.getD_none] at tick
        rw [tick, passes.bus, idle] at sending
        cases sending
    · have never : startWithin 1 s = none := by
        refine Option.eq_none_iff_forall_ne_some.2 fun t' started => ?_
        rw [started, Option.getD_some] at tick
        subst tick
        obtain ⟨j, within, start, -⟩ := startWithin_eq_some.1 started
        have same : t.tx.sendList = (slotPasses^[j] s).tx.sendList := by
          obtain rfl | rfl := Nat.le_one_iff_eq_zero_or_eq_one.1 within
          · exact list
          · rw [Function.iterate_one, passes.sendList]
            exact list
        refine (startNow_sends start).elim (fun its => ?_) fun its => its same
        rw [silent] at its
        cases its
      rw [never, Option.getD_none] at tick
      rw [tick] at start
      have free' : NoneInHand (slotPasses s) := passes.free free
      have now : startNow s = none := startWithin_eq_none.1 never 0 (Nat.zero_le 1)
      rw [startAfter, startWithin_succ, now]
      have began := Host.Outcome.next.inj ((atEvent_free (startAfter slots) free').symm.trans start)
      rw [startAfter] at began
      cases started : startWithin slots (slotPasses s) with
      | some u' =>
        rw [started, Option.getD_some] at began
        exact began
      | none =>
        rw [started, Option.getD_none] at began
        rw [← began, passes.bus, idle] at sending
        cases sending

end Sys2Proof
end

section
/-! A bundle's fragments at their starts, repeats, rebuilds and settlement DROPs. -/

namespace Sys2Proof.Machine

open Sys2Proof.Safety

/-- The content of a WRITE fragment's build: the versions carried (R62). -/
theorem readContent_write (w : WriteBody) (u : State) : ∃ w', readContent (.write w) u = (.write w', u)
    ∧ { w' with records := w.records } = w
    ∧ w'.records.map (fun r => (r.cell, r.data)) = w.records.map (fun r => (r.cell, r.data))
    ∧ ∀ r ∈ w'.records, (u.cells[r.cell].status = .present → r.version = succVersion u.cells[r.cell].version)
      ∧ (u.cells[r.cell].status = .damaged → r.version = 0) := by
  obtain ⟨b', cs, p, m, t, reads⟩ := readContent_reads (.write w) u
  obtain ⟨w', rfl, read⟩ := reads.read
  exact ⟨w', Prod.ext (congrArg Prod.fst reads.made :) rfl, read⟩

/-- A WRITE's build depends on the cells and data of its records alone, not on the versions they carried before. -/
theorem readContent_write_congr {w v : WriteBody} (same : { w with records := v.records } = v)
    (records : w.records.map (fun r => (r.cell, r.data)) = v.records.map (fun r => (r.cell, r.data))) (u : State) :
    readContent (.write w) u = readContent (.write v) u := by
  have carried : ∀ l : List WriteRecord, l.map (fun r => { r with version := carriedVersion r.cell u })
      = (l.map fun r => (r.cell, r.data)).map fun p =>
        { cell := p.1, version := carriedVersion p.1 u, data := p.2 } := fun l => by
    rw [List.map_map]
    rfl
  unfold readContent
  dsimp only
  rw [carried, records, ← carried, ← same]

theorem buildNew_congr {b b' : Body} {u : State} (same : readContent b u = readContent b' u) (ticket : Option TicketNo)
    (gap : GapKind) : buildNew b ticket gap u = buildNew b' ticket gap u := by
  unfold buildNew
  rw [same]

theorem fragmentRecords_map (b : Outgoing) (k : Nat) : (fragmentRecords b k).map (fun r => (r.cell, r.data))
    = ((b.entries.drop (8 * k)).take 8).map fun e => (e.cell, e.data) := by
  unfold fragmentRecords
  rw [List.map_map]
  rfl

theorem bundleInProgress_some {s : State} {b : Outgoing} (group : s.mship.state = .member ∨ s.mship.state = .leaving)
    (its : s.bundle.outgoing = some b) (begun : 1 ≤ b.next) (more : b.next < (b.entries.length + 7) / 8) :
    bundleInProgress s = some b := by
  rw [bundleInProgress, if_pos group, its]
  exact (Option.filter_some ..).trans (if_pos (by
    rw [Bool.and_eq_true, decide_eq_true_eq, decide_eq_true_eq]
    exact ⟨begun, more⟩))

/-! ### The frame in the slot again (R160, R166) -/

/-- The frames that each station state sends (R76). -/
theorem permits_again {st : StationState} {sl : Slot} (sendable : (st = .member ∨ st = .leaving)
      ∨ (st = .joinSent ∧ ∃ r, sl.frame.body = .join r) ∨ ((st = .awaitState ∨ st = .filling) ∧ sl.frame.body = .presence)) :
    statePermits st (.again sl) = true := by
  obtain group | ⟨rfl, r, join⟩ | ⟨awaiting, presence⟩ := sendable
  · exact permits_group group _
  · show offersJoin (.again sl) = true
    rw [offersJoin, join]
  · have its : offersPresence (.again sl) = true := by
      rw [offersPresence, presence]
      rfl
    obtain rfl | rfl := awaiting <;> exact its

/-- The slot of the frame of sl built again at u with body b. -/
def rebuilt (sl : Slot) (b : Body) (u : State) : Slot :=
  { sl with
    frame := { sl.frame with body := b }, required := requiredSet b u, targetIn := targetInSet b (requiredSet b u) }

theorem buildAgain_reads {sl : Slot} {b' : Body} {u : State} {cs : Vector CellRec 256} {p : HostPort} {m : MendUnit}
    {t : Option MendEntry} (unheard : sl.heard = false) (reads : Reads sl.frame.body u b' cs p m t) :
    buildAgain sl u = (handedOver u cs p m t).withTx
      { (handedOver u cs p m t).tx with slot := some (rebuilt sl b' u), seq := u.tx.seq } := by
  rw [buildAgain, if_neg (by rw [unheard]; exact Bool.false_ne_true), reads.made]
  rfl

/-- A build reads content: the kind and target of the body stand. -/
theorem readFrom_drop {s : State} {b b' : Body} (read : ReadFrom s b b') (x : Station) (r : DropReason) :
    b' = .drop x r ↔ b = .drop x r := by
  cases b with
  | write w =>
    obtain ⟨w', rfl, -⟩ := read
    exact iff_of_false nofun nofun
  | snapCells t g rs =>
    obtain ⟨rs', rfl, -⟩ := read
    exact iff_of_false nofun nofun
  | mendReply t c a =>
    obtain ⟨a', rfl, -⟩ := read
    exact iff_of_false nofun nofun
  | snapState t im =>
    obtain rfl := read
    exact iff_of_false nofun nofun
  | _ =>
    obtain rfl := read
    exact Iff.rfl

theorem readFrom_signal {s : State} {b b' : Body} {x : Station} {bytes : List Byte} (read : ReadFrom s b b')
    (its : b = .signal (some x) bytes) : b' = .signal (some x) bytes := by
  subst its
  exact read

/-- The oldest settlement DROP of a queue, and the queue without it. -/
theorem settlementDrop_first {before after : List DropEntry} {d : DropEntry} (turns : ∀ e ∈ before, e.cls = .turn)
    (its : d.cls = .settlement) : (before ++ d :: after).find? (·.cls == .settlement) = some d
      ∧ (before ++ d :: after).erase d = before ++ after := by
  have apart : d ∉ before := fun mem => by
    rw [turns d mem] at its
    cases its
  refine ⟨?_, ?_⟩
  · rw [List.find?_append, find_settlement_none turns, List.find?_cons_of_pos (by rw [its]; rfl)]
    rfl
  · rw [List.erase_append_right _ apart, List.erase_cons_head]

end Sys2Proof.Machine

namespace Sys2Proof

open Sys2Proof.Machine Sys2Proof.Safety

/-- Settles O34: the head of the send list, and the bundle in progress. -/
theorem startsFirstFragment : Obligations.StartsFirstFragment := by
  refine ⟨fun s slots k rest b tk may member slot drops replies mend presence joiners outgoing unbegun some list used live
      moment => ?_,
    fun s slots k b w may group slot turns outgoing begun index count short more records moment => ?_⟩
  · have turn : AtTurn s := ⟨slot, by rw [drops]; exact nofun, fun b' its => by
      obtain rfl := Option.some.inj (outgoing.symm.trans its)
      exact unbegun⟩
    have offered := (offer_shared turn ⟨drops, replies, mend, presence⟩).trans
      (sharedOffer_host list (.inl (snapshotWork_none joiners)))
    have tail : s.tx.sendList.tail = rest := by rw [list, List.tail_cons]
    obtain ⟨w, read, kept, records, versions⟩ := readContent_write { more := decide (0 + 1 < fragmentCount b.entries.length)
                                                                     index := 0
                                                                     count := fragmentCount b.entries.length
                                                                     records := fragmentRecords b 0 }
      ((passSlots k s).withTx { s.tx with sendList := rest, lastSource := .hostList })
    have start := exec_starts_ticket (o := .host { ticket := Option.some b.ticket, frame := .commit })
      (tx := { s.tx with sendList := rest, lastSource := .hostList }) may moment offered
      (by rw [member]; rfl) rfl read used live (by
        have body : hostBody .commit (passSlots k s) = Option.some (fragmentBody b 0) := by
          rw [hostBody, show (passSlots k s).bundle.outgoing = Option.some b from outgoing]
          rfl
        rw [buildOffer_host_some body, ← tail]
        rfl)
    have carried : w.more = decide (0 + 1 < fragmentCount b.entries.length) := (congrArg WriteBody.more kept :)
    refine ⟨_, _, w, start, rfl, rfl, (congrArg WriteBody.index kept :), (congrArg WriteBody.count kept :), ?_, ?_,
      versions, rfl, rfl,
      rfl, rfl, rfl, rfl, rfl, rfl, rfl, rfl, rfl, rfl⟩
    · rw [carried, decide_eq_true_eq, fragmentCount]
      omega
    · exact records.trans (fragmentRecords_map b 0)
  · have due : bundleInProgress s = some b := bundleInProgress_some group outgoing begun (by omega)
    refine startsNew (o := .fragment b) may moment (offer_fragment slot turns due) (permits_group group _) rfl rfl ?_
    refine buildNew_congr (readContent_write_congr ?_ ?_ _) none .followOn
    · have its : decide (b.next + 1 < fragmentCount b.entries.length) = w.more := by
        rw [Bool.eq_iff_iff, decide_eq_true_eq, more, index, count]
        rfl
      rw [its, ← index, show fragmentCount b.entries.length = w.count from count.symm]
    · rw [fragmentRecords_map, records]

/-- Settles O35: the repeat, the settlement DROP, the rebuild. -/
theorem startsRepeat : Obligations.StartsRepeat := by
  intro s slots k may groupSender sendable
  refine ⟨fun sl slot permitted heard gap moment => ?_, fun before d after group slot drops turns its moment => ?_,
    fun sl slot permitted unheard moment => ?_⟩
  · have built : buildOffer (.again sl) (passSlots k s) = (passSlots k s).withTx { s.tx with
        slot := some { sl with frame := { sl.frame with head := { sl.frame.head with repeated := true } } } } := if_pos heard
    have start := exec_starts (o := .again sl) may moment (offer_again slot) (permits_again permitted)
      (by rw [offerGap, gap]; rfl) (by rw [built]; rfl)
    rw [built] at start
    have began := sends_passSlots may k { s.tx with
      slot := some { sl with frame := { sl.frame with head := { sl.frame.head with repeated := true } } } } s.sponsor s.port
    refine ⟨_, start.trans (congrArg Host.Outcome.next began), rfl, rfl, rfl, rfl, rfl, rfl, rfl, rfl, rfl, rfl, rfl, rfl,
      rfl, rfl⟩
  · obtain ⟨found, erased⟩ := settlementDrop_first (after := after) turns its
    rw [← drops] at found erased
    have gap : offerGap (.drop d) = .repeatGap := if_pos its
    rw [← gap]
    refine startsNew may moment (offer_settlement slot found) (permits_group group _) (by rw [gap]; rfl) rfl ?_
    rw [← erased]
    rfl
  · obtain ⟨b', cs, p, m, t, reads⟩ := readContent_reads sl.frame.body (passSlots k s)
    have built : buildOffer (.again sl) (passSlots k s) = _ := buildAgain_reads unheard reads
    have start := exec_starts (o := .again sl) may moment (offer_again slot) (permits_again permitted) rfl
      (by rw [built]; rfl)
    rw [built] at start
    have began := sends_passSlots may k { s.tx with slot := some (rebuilt sl b' (passSlots k s)) } s.sponsor s.port
    refine ⟨_, rebuilt sl b' (passSlots k s), start, readFrom_of rfl rfl rfl rfl reads.read, fun x => ?_,
      fun x bytes its => ?_, rfl,
      rfl, ?_⟩
    · refine (flag_requiredSet b' (passSlots k s) x).trans ?_
      exact and_congr_right fun _ => and_congr_right fun _ => forall_congr' fun r => not_congr (readFrom_drop reads.read x r)
    · obtain rfl := readFrom_signal reads.read its
      rfl
    · have made := reads_buildReads reads (some (rebuilt sl b' (passSlots k s))) (passSlots k s).tx.seq
      exact (congrArg (fun w => BuildReads sl.frame.body w _) began).mp made

end Sys2Proof
end

section
/-! A peer's frame in the middle of this station's own bundle. -/

namespace Sys2Proof.Machine

open Sys2Proof.Safety

/-- The slot and counter once an unheard WRITE fragment is abandoned (R71). -/
theorem abandonUnheardFragment_eq {w : State} {tx : Transmit}
    (its : (∃ sl b, w.tx.slot = some sl ∧ sl.heard = false ∧ sl.frame.body = .write b
        ∧ tx = { w.tx with slot := none, seq := sl.frame.head.seq })
      ∨ ((∀ sl, w.tx.slot = some sl → sl.heard = true ∨ ∀ b, sl.frame.body ≠ .write b) ∧ tx = w.tx)) :
    abandonUnheardFragment w = w.withTx tx := by
  obtain ⟨sl, b, slot, unheard, body, rfl⟩ | ⟨other, rfl⟩ := its
  · rw [abandonUnheardFragment, slot]
    dsimp only
    rw [unheard, body]
  · unfold abandonUnheardFragment
    split
    · rename_i sl slot
      split
      · rename_i b unheard body
        exact ((other sl slot).elim (fun heard => nomatch unheard.symm.trans heard) fun no => absurd body (no b))
      · rfl
    · rfl

/-- A bundle broken: its COMMIT REFUSED, the buffer emptied, an unheard fragment abandoned (R71). -/
theorem breakBundle_eq {w : State} {b : Outgoing} {tk : Ticket} {tx : Transmit} (outgoing : w.bundle.outgoing = some b)
    (used : w.port.tickets[b.ticket] = some tk) (live : tk.state ≠ .done)
    (its : (∃ sl wb, w.tx.slot = some sl ∧ sl.heard = false ∧ sl.frame.body = .write wb
        ∧ tx = { w.tx with slot := none, seq := sl.frame.head.seq })
      ∨ ((∀ sl, w.tx.slot = some sl → sl.heard = true ∨ ∀ wb, sl.frame.body ≠ .write wb) ∧ tx = w.tx)) :
    breakBundle w = ((w.withPort (completed b.ticket tk .refused w.port)).withBundle
      { w.bundle with outgoing := none }).withTx tx := by
  rw [breakBundle, outgoing]
  dsimp only
  rw [completeCommit, outgoing]
  dsimp only
  rw [complete_completed used live]
  exact abandonUnheardFragment_eq (w := (w.withPort (completed b.ticket tk .refused w.port)).withBundle
    { w.bundle with outgoing := none }) its

/-- The path of a taken frame of a peer, whatever is staged. -/
theorem takeFrame_peer {s : State} {f : Frame} (known : s.mship.table[f.head.sender].state ≠ .absent) :
    takeFrame f none (signOfLife f.head.sender (setDoubt .clear (heardState f s)))
      = effect f none (stagingStep f (setStaging s.apply.staging (lockEffect f (reached f s)))) := by
  have sender : isTableSender (signOfLife f.head.sender (setDoubt .clear (heardState f s))).mship.table f.head.sender
    = true :=
    bne_iff_ne.2 known
  unfold takeFrame recordSeq
  rw [if_pos sender, lockEffect_setStaging]
  rfl

/-- A peer's frame that is taken leaves what its path leaves, and the ack window follows. -/
theorem exec_taken {s t : State} {f : Frame} (hears : Hears s f) (group : FromTableSender s f) (next : NextInSequence s f)
    (made : effect f none (stagingStep f (setStaging s.apply.staging (lockEffect f (reached f s)))) = some t)
    (bus : t.bus = (hearing f s).bus) (holder : isHolder t.mship.state = true) :
    exec (frameCommand f) s = .next (t.withBus (busAfter f true s.bus)) := by
  obtain ⟨was, peer, known, clear⟩ := group
  refine exec_handled hears was ?_ bus
  rw [← holder]
  exact handleAtHolder_applied (isForeign_of_sender (s := heardState f s) peer known)
    (resolveDoubt_free (s := heardState f s) clear) (checkSeq_next (s := setDoubt .clear (heardState f s)) next)
    ((takeFrame_peer known).trans made)

/-- A peer's frame that discards this station's own staging breaks its bundle. -/
theorem exec_breaks {s : State} {f : Frame} {st : Staging} {b : Outgoing} {tk : Ticket} {tx : Transmit}
    {l : Vector RegionEntry 16} {p : HostPort} (hears : Hears s f) (group : FromTableSender s f) (next : NextInSequence s f)
    (staged : s.apply.staging = some st) (own : st.sender = s.straps.number) (outgoing : s.bundle.outgoing = some b)
    (used : p.tickets[b.ticket] = some tk) (live : tk.state ≠ .done)
    (its : (∃ sl wb, s.tx.slot = some sl ∧ sl.heard = false ∧ sl.frame.body = .write wb
        ∧ tx = { (taken f s).tx with slot := none, seq := sl.frame.head.seq })
      ∨ ((∀ sl, s.tx.slot = some sl → sl.heard = true ∨ ∀ wb, sl.frame.body ≠ .write wb) ∧ tx = (taken f s).tx))
    (locked : lockEffect f (reached f s) = ((reached f s).withLocks l).withPort p)
    (plain : ∀ w, w.straps = s.straps → effect f none w = some w) :
    exec (frameCommand f) s = .next { taken f s with
      locks := l, bundle := { s.bundle with outgoing := none }, tx := tx, port := completed b.ticket tk .refused p } := by
  have discarded : (taken f s).apply.staging = none := by
    show s.apply.staging.filter _ = none
    rw [staged]
    exact Option.filter_eq_none_iff.2 fun st' same => by
      obtain rfl := Option.some.inj same
      rw [own, beq_eq_false_iff_ne.2 group.2.1.symm, Bool.false_and]
      exact Bool.false_ne_true
  have step : stagingStep f (setStaging s.apply.staging (lockEffect f (reached f s)))
      = breakBundle (((reached f s).withLocks l).withPort p) := by
    rw [locked, stagingStep,
      show (setStaging s.apply.staging (((reached f s).withLocks l).withPort p)).apply.staging = some st from
      staged]
    dsimp only
    rw [if_neg fun same => group.2.1 (same.1.symm.trans own)]
    refine (if_pos own).trans (congrArg breakBundle ?_)
    exact setStaging_self (s := ((reached f s).withLocks l).withPort p) discarded
  have broken := breakBundle_eq (w := ((reached f s).withLocks l).withPort p) outgoing used live its
  refine (exec_taken hears group next
    ((congrArg (effect f none) (step.trans broken)).trans (plain _ rfl)) rfl group.1).trans ?_
  rfl

theorem lockEffect_claim_free {s : State} {head : FrameHead} {r : Region} (peer : head.sender ≠ s.straps.number)
    (member : s.mship.table[head.sender].state = .member) (free : s.locks[r].holder = none) :
    lockEffect { head := head, body := .claim r } (reached { head := head, body := .claim r } s)
      = ((reached { head := head, body := .claim r } s).withLocks
          (s.locks.set r.val { s.locks[r] with holder := some head.sender })).withPort s.port := by
  have sender := (isMember_reached { head := head, body := .claim r } s head.sender).trans ((isMember_iff _ _).2 member)
  have entry : claimEntry head.sender s.locks[r] = { s.locks[r] with holder := some head.sender } := by
    rw [claimEntry, free]
  show applyClaim head.sender r (reached { head := head, body := .claim r } s) = _
  rw [applyClaim, if_pos sender, ← entry]
  exact if_neg fun own => peer own.1

theorem lockEffect_yield_grants {s : State} {head : FrameHead} {r : Region} {ws : List Station} {k : TicketNo} {u : Ticket}
    (peer : head.sender ≠ s.straps.number) (held : s.locks[r].holder = some head.sender)
    (queue : s.locks[r].waiters = s.straps.number :: ws) (sole : SoleLive k u s.port) (kind : u.kind = .claim)
    (arg : u.arg = .region r) :
    lockEffect { head := head, body := .yield r } (reached { head := head, body := .yield r } s)
      = ((reached { head := head, body := .yield r } s).withLocks
          (s.locks.set r.val { holder := some s.straps.number, waiters := ws })).withPort
            (completed k u .granted s.port) := by
  have before : s.locks[r].holder ≠ some s.straps.number := fun own => peer (Option.some.inj (held.symm.trans own))
  have done := completeFor_sole (s := (reached { head := head, body := .yield r } s).withLocks
    (s.locks.set r.val { holder := some s.straps.number, waiters := ws })) .granted sole arg
  rw [kind] at done
  have granted := (completeGrants_set_own (s := reached { head := head, body := .yield r } s)
    (e := { holder := some s.straps.number, waiters := ws }) rfl before).trans done
  refine (if_neg peer).trans ?_
  show completeGrants s.locks ((reached { head := head, body := .yield r } s).withLocks
    (s.locks.set r.val (yieldEntry head.sender s.locks[r]))) = _
  rw [yieldEntry_passes held queue]
  exact granted

/-- A foreign frame's report touches the notices and the reported set alone. -/
theorem reportForeign_changes (x : Station) (s : State) : ∃ p a,
    reportForeign x s = (s.withApply { s.apply with foreign := a }).withPort p ∧ p.tickets = s.port.tickets := by
  unfold reportForeign
  split
  · obtain ⟨p, posted, -⟩ :=
      postNotice_changes (.foreign x) (s.withApply { s.apply with foreign := flagSet s.apply.foreign x })
    have grown := postNotice_grown (.foreign x) (s.withApply { s.apply with foreign := flagSet s.apply.foreign x })
    rw [posted] at grown ⊢
    exact ⟨p, _, rfl, grown.tickets⟩
  · exact ⟨s.port, s.apply.foreign, rfl, rfl⟩

end Sys2Proof.Machine

namespace Sys2Proof

open Sys2Proof.Machine Sys2Proof.Safety

/-- Settles O48: the kinds without an effect here, the CLAIM, the YIELD that grants, and the foreign frame. -/
theorem foreignerInMidBundleBreaksIt : Obligations.ForeignerInMidBundleBreaksIt := by
  intro s f st b tk hears staged own outgoing used live
  refine ⟨fun group next tx its => ?_, fun holder foreign => ?_⟩
  · have breaks := fun {l p} used locked plain =>
      exec_breaks (l := l) (p := p) hears group next staged own outgoing used live its locked plain
    have peer : f.head.sender ≠ s.straps.number := group.2.1
    obtain ⟨head, body⟩ := f
    refine ⟨fun kinds => ?_, fun r body member free => ?_, fun r ws k u body held queue sole kind arg commit => ?_⟩
    · refine breaks (l := s.locks) (p := s.port) used ?_ fun w straps => ?_
      · refine lockEffect_none _ ?_
        obtain rfl | ⟨x, c, rfl, -⟩ | ⟨x, bytes, rfl, -⟩ := kinds
        · exact .inl rfl
        · exact .inr (.inr (.inr (.inr (.inl ⟨_, _, rfl⟩))))
        · exact .inr (.inr (.inr (.inr (.inr (.inr ⟨_, _, rfl⟩)))))
      · obtain rfl | ⟨x, c, rfl, other⟩ | ⟨x, bytes, rfl, other⟩ := kinds
        · rfl
        · exact congrArg some (if_neg fun its => other (by rw [its.1, self, straps]))
        · refine congrArg some (if_neg fun its => ?_)
          obtain none | mine := its.2.1
          · cases none
          · exact other (by rw [Option.some.inj mine, self, straps])
    · subst body
      refine breaks (l := s.locks.set r.val { s.locks[r] with holder := some head.sender })
        (p := s.port) used ?_ fun _ _ => rfl
      exact lockEffect_claim_free peer member free
    · subst body
      have granted := lockEffect_yield_grants peer held queue sole kind arg
      refine breaks ?_ granted fun w straps =>
        congrArg some (if_neg fun own => peer (own.trans (congrArg Straps.number straps)))
      refine (getElem_set_fin _ _ _ _).trans ((if_neg ?_).trans used)
      rintro rfl
      obtain rfl := Option.some.inj (used.symm.trans sole.1)
      rw [commit] at kind
      cases kind
  · obtain ⟨p, a, reported, tickets⟩ := reportForeign_changes f.head.sender (heardState f s)
    refine ⟨_, exec_foreign hears holder foreign reported rfl, rfl, rfl, rfl, tickets⟩

end Sys2Proof
end

section
/-! Stations removed from the group, and stations that join it. -/

namespace Sys2Proof.Machine

open Sys2Proof.Safety

/-! ### What follows a removal leaves -/

/-- What the steps after a removal leave of the station (R82, R87, R89, R125). -/
structure Follows (w t : State) : Prop where
  pending : t.pending = w.pending
  straps : t.straps = w.straps
  mem : t.mem = w.mem
  cells : t.cells = w.cells
  locks : t.locks = w.locks
  bundle : t.bundle = w.bundle
  bus : t.bus = w.bus
  access : t.access = w.access
  state : t.mship.state = w.mship.state
  silence : t.mship.silence = w.mship.silence
  drops : t.tx.drops = w.tx.drops
  foreign : ∀ y, flag w.apply.foreign y = false → flag t.apply.foreign y = false

theorem Follows.refl (w : State) : Follows w w := ⟨rfl, rfl, rfl, rfl, rfl, rfl, rfl, rfl, rfl, rfl, rfl, fun _ => id⟩

theorem Follows.trans {w t v : State} (h : Follows w t) (k : Follows t v) : Follows w v :=
  ⟨k.pending.trans h.pending, k.straps.trans h.straps, k.mem.trans h.mem, k.cells.trans h.cells, k.locks.trans h.locks,
    k.bundle.trans h.bundle, k.bus.trans h.bus, k.access.trans h.access, k.state.trans h.state, k.silence.trans h.silence,
    k.drops.trans h.drops, fun y clear => k.foreign y (h.foreign y clear)⟩

theorem follows_changeTable (t : Vector MemberEntry 16) (w : State) : Follows w (changeTable t w) := by
  refine ⟨rfl, rfl, rfl, rfl, rfl, rfl, rfl, rfl, rfl, rfl, rfl, fun y clear => ?_⟩
  refine (flag_and _ _ y).trans ?_
  rw [clear, Bool.false_and]

/-- A station whose entry changes leaves the foreign-reported set (R32). -/
theorem changeTable_forgets {t : Vector MemberEntry 16} {w : State} {x : Station}
    (changed : t[x].state ≠ w.mship.table[x].state) : flag (changeTable t w).apply.foreign x = false := by
  refine (flag_and _ _ x).trans ?_
  rw [flag_flagsOf, sameEntry, beq_eq_false_iff_ne.2 changed.symm, Bool.false_and, Bool.false_and, Bool.and_false]

theorem follows_sponsor (u : SponsorUnit) (w : State) : Follows w (w.withSponsor u) :=
  ⟨rfl, rfl, rfl, rfl, rfl, rfl, rfl, rfl, rfl, rfl, rfl, fun _ => id⟩

theorem follows_postNotice (n : Notice) (w : State) : Follows w (postNotice n w) := by
  obtain ⟨p, posted, -⟩ := postNotice_changes n w
  rw [posted]
  exact ⟨rfl, rfl, rfl, rfl, rfl, rfl, rfl, rfl, rfl, rfl, rfl, fun _ => id⟩

theorem follows_reassign (y : Station) (w : State) : Follows w (reassign y w) := by
  cases lowest : lowestMember w.mship.table with
  | some z =>
    obtain ⟨u, made, -⟩ := reassign_some (y := y) lowest
    rw [made]
    exact (follows_changeTable _ w).trans (follows_sponsor u _)
  | none =>
    obtain ⟨u, made, -⟩ := reassign_none (y := y) lowest
    rw [made]
    exact (follows_changeTable _ w).trans (follows_sponsor u _)

/-- The Mend Unit's step at the loss of x drops the replies to x (R121, R125). -/
theorem mendPeerLost_changes (x : Station) (w : State) : ∃ p m u, mendPeerLost x w = ((w.withPort p).withMend m).withTx
    { w.tx with replies := w.tx.replies.filter (·.requester != x), mend := u } := by
  have same : ∃ p m u, w.withTx { w.tx with replies := w.tx.replies.filter (·.requester != x) }
    = ((w.withPort p).withMend m).withTx
      { w.tx with replies := w.tx.replies.filter (·.requester != x), mend := u } := ⟨w.port, w.mend, w.tx.mend, rfl⟩
  unfold mendPeerLost
  dsimp only
  split
  · split
    · obtain ⟨p, m, u, made⟩ :=
        attemptMend_changes (w.withTx { w.tx with replies := w.tx.replies.filter (·.requester != x) })
      exact ⟨p, m, u, made.trans rfl⟩
    · exact same
  · exact same

theorem follows_mendPeerLost (x : Station) (w : State) : Follows w (mendPeerLost x w) := by
  obtain ⟨p, m, u, made⟩ := mendPeerLost_changes x w
  rw [made]
  exact ⟨rfl, rfl, rfl, rfl, rfl, rfl, rfl, rfl, rfl, rfl, rfl, fun _ => id⟩

theorem postNotice_last (n : Notice) (w : State) :
    (postNotice n w).port.notices.getLast? = some n ∨ (postNotice n w).port.noticesDropped = true := by
  unfold postNotice
  split
  · exact .inl List.getLast?_concat
  · exact .inr rfl

/-- The steps after a removal, where the station does not depart for want of a MEMBER. -/
theorem afterRemoval_stays {x : Station} {was : Bool} {reason : OutReason} {w : State}
    (stays : w.mship.state ≠ .filling) : afterRemoval x was reason w
      = postNotice (.memberOut x reason) (if was = true then mendPeerLost x (reassign x w) else w) :=
        if_neg fun h => stays h.1

theorem lowestMember_isSome {t : Vector MemberEntry 16} {z : Station} (member : t[z].state = .member) :
    ∃ y, lowestMember t = some y := by
  cases lowest : lowestMember t with
  | some y => exact ⟨y, rfl⟩
  | none => exact absurd member (lowestMember_none lowest z)

/-- What a station expelled from the group leaves of it (R87, R89). -/
structure Expelled (x : Station) (reason : OutReason) (w t : State) : Prop where
  follows : Follows (withdrawDrops x (setSilence x none w)) t
  gone : t.mship.table[x] = absentEntry
  states : ∀ y, y ≠ x → t.mship.table[y].state = w.mship.table[y].state
  stranger : flag t.apply.foreign x = false
  last : t.port.notices.getLast? = some (.memberOut x reason) ∨ t.port.noticesDropped = true

theorem expel_expels {x z : Station} (reason : OutReason) {w : State} (listed : w.mship.table[x].state ≠ .absent)
    (stays : w.mship.state ≠ .filling) (other : z ≠ x) (member : w.mship.table[z].state = .member) :
    Expelled x reason w (expel x reason w) := by
  obtain ⟨u, forgot⟩ :=
    sponsorForget_changes x (withdrawDrops x (setSilence x none (changeTable (makeAbsent x w.mship.table) w)))
  have made : expel x reason w = afterRemoval x (isMember w.mship.table x) reason
      ((withdrawDrops x (setSilence x none (changeTable (makeAbsent x w.mship.table) w))).withSponsor u) := by
    rw [← forgot]
    rfl
  generalize hv : (withdrawDrops x (setSilence x none (changeTable (makeAbsent x w.mship.table) w))).withSponsor u
    = v at made
  have table : v.mship.table = makeAbsent x w.mship.table := by
    rw [← hv]
    rfl
  have state : ∀ y, v.mship.table[y].state = if y = x then .absent else w.mship.table[y].state := fun y => by
    rw [table, makeAbsent_state]
  have first : Follows (withdrawDrops x (setSilence x none w)) v := by
    rw [← hv]
    exact ⟨rfl, rfl, rfl, rfl, rfl, rfl, rfl, rfl, rfl, rfl, rfl, (follows_changeTable _ w).foreign⟩
  have stranger : flag v.apply.foreign x = false := by
    rw [← hv]
    exact changeTable_forgets (by rw [makeAbsent_state, if_pos rfl]; exact listed.symm)
  have entry : v.mship.table[x] = absentEntry := by
    rw [table, makeAbsent, leaveJoinOrder_getElem, if_pos rfl]
  rw [made, afterRemoval_stays (by rw [first.state]; exact stays)]
  have kept : ∀ n u, Follows v u → u.mship.table[x] = absentEntry
    → (∀ y : Station, u.mship.table[y].state = v.mship.table[y].state) →
      n = Notice.memberOut x reason → Expelled x reason w (postNotice n u) := fun n u follows its same named => by
    obtain ⟨p, posted, -⟩ := postNotice_changes n u
    have mship : (postNotice n u).mship = u.mship := by
      rw [posted]
      rfl
    have after := follows.trans (follows_postNotice n u)
    refine ⟨first.trans after, by rw [mship]; exact its, fun y other => ?_, after.foreign x stranger,
      named ▸ postNotice_last n u⟩
    rw [mship, same, state, if_neg other]
  cases was : isMember w.mship.table x with
  | false => exact kept _ v (.refl v) entry (fun _ => rfl) rfl
  | true =>
    obtain ⟨z', lowest⟩ := lowestMember_isSome (t := v.mship.table) (z := z) (by rw [state, if_neg other]; exact member)
    obtain ⟨u', handed, -⟩ := reassign_some (y := x) lowest
    obtain ⟨p, m, e, lost⟩ := mendPeerLost_changes x (reassign x v)
    have mship : (mendPeerLost x (reassign x v)).mship.table = v.mship.table.map (responsor x z') := by
      rw [lost, handed]
      rfl
    rw [if_pos rfl]
    refine kept _ _ ((follows_reassign x v).trans (follows_mendPeerLost x _)) ?_ (fun y => ?_) rfl
    · rw [mship, getElem_map_fin, entry]
      rfl
    · rw [mship, getElem_map_fin, responsor_state]

/-! ### The locks of a station removed (R42) -/

theorem yieldEntry_free {x : Station} {e : RegionEntry} (free : FreeOf x e) : yieldEntry x e = e := by
  rw [yieldEntry_other free.1]
  have same : e.waiters.filter (· != x) = e.waiters := List.filter_eq_self.2 fun w mem => by
    rw [bne_iff_ne]
    rintro rfl
    exact free.2 mem
  rw [same]

/-- A station that is no MEMBER stands in no lock entry (R36). -/
theorem LocksOk.free {t : Vector MemberEntry 16} {l : Vector RegionEntry 16} (ok : LocksOk t l) {x : Station}
    (no : t[x].state ≠ .member) (r : Region) : FreeOf x l[r] :=
  ⟨fun held => no ((ok r).1 x held).1, fun mem => no ((ok r).2.1 x mem)⟩

theorem releaseLocks_entry (x : Station) (w : State) (r : Region) :
    (releaseLocks x w).locks[r] = yieldEntry x w.locks[r] := by
  rw [(releaseLocks_same x w).locks]
  exact getElem_map_fin _ _ _

theorem lockEffect_leave {s : State} {f : Frame} (known : isMember (reached f s).mship.table f.head.sender = true)
    (body : f.body = .leave) (r : Region) : (lockEffect f (reached f s)).locks[r] = yieldEntry f.head.sender s.locks[r] := by
  rw [lockEffect, body]
  dsimp only
  rw [if_pos known]
  exact releaseLocks_entry _ _ r

theorem lockEffect_drop {s : State} {f : Frame} {x : Station} {d : DropReason} (ok : GroupOk none s)
    (known : isMember (reached f s).mship.table f.head.sender = true) (other : x ≠ s.straps.number)
    (body : f.body = .drop x d) (r : Region) : (lockEffect f (reached f s)).locks[r] = yieldEntry x s.locks[r] := by
  rw [lockEffect, body]
  dsimp only
  by_cases member : s.mship.table[x].state = .member
  · rw [if_pos ⟨known, other, (isMember_reached f s x).trans ((isMember_iff _ _).2 member)⟩]
    exact releaseLocks_entry _ _ r
  · rw [if_neg fun h => member ((isMember_iff _ _).1 ((isMember_reached f s x).symm.trans h.2.2)),
      yieldEntry_free (ok.locks.free member r)]
    rfl

theorem applyDrop_expels {sender x : Station} {d : DropReason} {w : State} (known : isMember w.mship.table sender = true)
    (other : x ≠ self w) (target : isTableSender w.mship.table x = true) :
    applyDrop sender x d w = expel x (outReasonOf d) w := (if_pos known).trans ((if_neg other).trans (if_pos target))

theorem noReset_frameCommand (f : Frame) : NoReset (frameCommand f) := by
  obtain ⟨head, body⟩ := f
  cases body <;> exact ⟨nofun, nofun⟩

/-- The law of the group holds after every good frame of a peer. -/
theorem frame_groupOk {s t : State} {f : Frame} (law : GroupLaw s) (run : exec (frameCommand f) s = .next t) :
    GroupOk none t :=
  exec_groupOk ((groupLaw_iff s).1 law) (noReset_frameCommand f) run

/-- Nobody is sponsored by a station that is no MEMBER. -/
theorem GroupOk.sponsor_ne {w : State} (ok : GroupOk none w) {x : Station} (no : w.mship.table[x].state ≠ .member)
    (y : Station) :
    w.mship.table[y].sponsor ≠ some x := by
  intro its
  by_cases join : w.mship.table[y].state = .joining
  · obtain ⟨z, sponsor, member⟩ := ok.table.sponsored y join
    obtain rfl := Option.some.inj (its.symm.trans sponsor)
    exact no (member.resolve_right nofun)
  · rw [(ok.table.others y join).1] at its
    cases its

/-! ### A joiner left without a MEMBER (R95) -/

/-- The departure's notices are completions and LEFT_GROUP alone. -/
theorem depart_memberOut {r : DepartReason} {w : State} {x : Station} {reason : OutReason}
    (mem : .memberOut x reason ∈ (depart r w).port.notices) : .memberOut x reason ∈ w.port.notices := by
  have completed_one : ∀ (k : TicketNo) (v : State), Notice.memberOut x reason ∈ (complete k .lost v).port.notices →
      .memberOut x reason ∈ v.port.notices := fun k v mem => by
    by_cases live : ∃ u, v.port.tickets[k] = some u ∧ u.state ≠ .done
    · obtain ⟨u, used, live⟩ := live
      rw [complete_live used live] at mem
      exact (List.mem_append.1 mem).resolve_right fun last => nomatch List.mem_singleton.1 last
    · rwa [complete_other fun u used => not_not.1 fun h => live ⟨u, used, h⟩] at mem
  have completed_all : ∀ (ks : List TicketNo) (v : State),
    Notice.memberOut x reason ∈ (completeAll ks .lost v).port.notices →
      .memberOut x reason ∈ v.port.notices := fun ks => by
    induction ks with
    | nil => exact fun v mem => mem
    | cons k ks ih => exact fun v mem => completed_one k v (ih _ mem)
  have posted : Notice.memberOut x reason ∈ (departNotices r w).port.notices := by
    rw [depart_eq] at mem
    exact mem
  unfold departNotices postNotice at posted
  split at posted
  · exact completed_all _ w ((List.mem_append.1 posted).resolve_right fun last => nomatch List.mem_singleton.1 last)
  · exact completed_all _ w posted

/-- What the steps before a departure leave, so that it is one of the state before them. -/
theorem departed_of {s w t : State} (departed : Departed w t) (mem : w.mem = s.mem) (cells : w.cells = s.cells)
    (limit : w.mship.repeatLimit = s.mship.repeatLimit) (auto : w.mship.autoRejoin = s.mship.autoRejoin)
    (port : w.port = s.port)
    (seq : w.tx.seq = s.tx.seq) (last : w.tx.lastSource = s.tx.lastSource) (straps : w.straps = s.straps)
    (pending : w.pending = s.pending) : Departed s t := by
  unfold Departed at departed ⊢
  rwa [mem, cells, limit, auto, port, seq, last, straps, pending] at departed

/-- A station that is no MEMBER is granted nothing by what a removal releases. -/
theorem releaseLocks_silent {w : State} (ok : LocksOk w.mship.table w.locks) (x : Station)
    (no : w.mship.table[w.straps.number].state ≠ .member) : releaseLocks x w = w.withLocks (w.locks.map (yieldEntry x)) := by
  have none : grantedSince w.locks (w.withLocks (w.locks.map (yieldEntry x))) = [] := by
    rw [List.eq_nil_iff_forall_not_mem]
    intro r granted
    exact no ((ok.yieldAll x r).1 _ (mem_grantedSince.1 granted).1).1
  rw [releaseLocks, completeGrants, none]
  rfl

/-- A frame of a peer past its sequence check, whatever station state its effect leaves. -/
theorem exec_sequenced {s t : State} {f : Frame} {b : Bool} (hears : Hears s f) (group : FromTableSender s f)
    (next : checkSeq f (setDoubt .clear (heardState f s)) = .applied) (quiet : NoOwnStaging s)
    (made : effect f none (lockEffect f (reached f s)) = some t) (bus : t.bus = (hearing f s).bus)
    (acked : isHolder t.mship.state = b) : exec (frameCommand f) s = .next (t.withBus (busAfter f b s.bus)) := by
  obtain ⟨holder, peer, listed, clear⟩ := group
  have staged : stagingStep f (setStaging s.apply.staging (lockEffect f (reached f s))) = lockEffect f (reached f s) := by
    rw [lockEffect_setStaging, stagingStep_peer (fun st its => by
      rw [lockEffect_apply] at its
      rw [lockEffect_straps]
      exact quiet st its), lockEffect_setStaging]
    exact congrArg (lockEffect f) (by rw [lockEffect_apply]; rfl)
  refine exec_handled hears holder ?_ bus
  rw [← acked]
  exact handleAtHolder_applied (isForeign_of_sender (s := heardState f s) peer listed)
    (resolveDoubt_free (s := heardState f s) clear) next ((takeFrame_peer listed).trans (by rw [staged]; exact made))

/-- A JOIN of a station that is no joiner is applied, whatever its sequence (R26). -/
theorem checkSeq_join {f : Frame} {w : State} {b : Bool} (join : f.body = .join b)
    (other : w.mship.table[f.head.sender].state ≠ .joining) : checkSeq f w = .applied := by
  rw [checkSeq, join]
  exact if_neg fun h => other h.2.1

/-- What a station keeps up to the departure for want of a MEMBER. -/
structure Leaving (f : Frame) (s v : State) : Prop where
  mem : v.mem = s.mem
  cells : v.cells = s.cells
  limit : v.mship.repeatLimit = s.mship.repeatLimit
  auto : v.mship.autoRejoin = s.mship.autoRejoin
  listening : v.mship.listening = true
  port : v.port = s.port
  seq : v.tx.seq = s.tx.seq
  last : v.tx.lastSource = s.tx.lastSource
  straps : v.straps = s.straps
  pending : v.pending = s.pending
  bus : v.bus = (hearing f s).bus
  access : v.access = { s.access with reference := some f.head.sender }

theorem Leaving.reached (f : Frame) (s : State) : Leaving f s (reached f s) :=
  ⟨rfl, rfl, rfl, rfl, rfl, rfl, rfl, rfl, rfl, rfl, rfl, rfl⟩

theorem Leaving.withLocks {f : Frame} {s w : State} (so : Leaving f s w) (l : Vector RegionEntry 16) :
    Leaving f s (w.withLocks l) :=
  ⟨so.mem, so.cells, so.limit, so.auto, so.listening, so.port, so.seq, so.last, so.straps, so.pending, so.bus, so.access⟩

theorem Leaving.withSponsor {f : Frame} {s w : State} (so : Leaving f s w) (u : SponsorUnit) :
    Leaving f s (w.withSponsor u) :=
  ⟨so.mem, so.cells, so.limit, so.auto, so.listening, so.port, so.seq, so.last, so.straps, so.pending, so.bus, so.access⟩

theorem Leaving.changeTable {f : Frame} {s w : State} (so : Leaving f s w) (t : Vector MemberEntry 16) :
    Leaving f s (changeTable t w) :=
  ⟨so.mem, so.cells, so.limit, so.auto, so.listening, so.port, so.seq, so.last, so.straps, so.pending, so.bus, so.access⟩

theorem Leaving.setSilence {f : Frame} {s w : State} (so : Leaving f s w) (x : Station) (v : Option Nat) :
    Leaving f s (setSilence x v w) :=
  ⟨so.mem, so.cells, so.limit, so.auto, so.listening, so.port, so.seq, so.last, so.straps, so.pending, so.bus, so.access⟩

theorem Leaving.withdrawDrops {f : Frame} {s w : State} (so : Leaving f s w) (x : Station) :
    Leaving f s (withdrawDrops x w) :=
  ⟨so.mem, so.cells, so.limit, so.auto, so.listening, so.port, so.seq, so.last, so.straps, so.pending, so.bus, so.access⟩

theorem Leaving.forgetStranger {f : Frame} {s w : State} (so : Leaving f s w) (x : Station) :
    Leaving f s (forgetStranger x w) :=
  ⟨so.mem, so.cells, so.limit, so.auto, so.listening, so.port, so.seq, so.last, so.straps, so.pending, so.bus, so.access⟩

theorem makeAbsent_lowest {x : Station} {t : Vector MemberEntry 16} (alone : ∀ y : Station, y ≠ x → t[y].state ≠ .member) :
    lowestMember (makeAbsent x t) = none := by
  refine List.find?_eq_none.2 fun y _ member => ?_
  rw [isMember_iff, makeAbsent_state] at member
  split at member
  · cases member
  · exact alone y ‹_› member

theorem afterRemoval_departs {x : Station} {was : Bool} {reason : OutReason} {w : State} (filling : w.mship.state = .filling)
    (none : lowestMember w.mship.table = none) : afterRemoval x was reason w = depart .noSponsor w :=
  if_pos ⟨filling, by rw [noMember, none]; rfl⟩

/-- The LEAVE or the rejoin JOIN of the last MEMBER, at a FILLING station. -/
theorem effect_noSponsor {s : State} {f : Frame} (ok : GroupOk none s) (filling : s.mship.state = .filling)
    (peer : f.head.sender ≠ s.straps.number) (sender : s.mship.table[f.head.sender].state = .member)
    (alone : ∀ y : Station, y ≠ f.head.sender → s.mship.table[y].state ≠ .member)
    (kinds : f.body = .leave ∨ ∃ b, f.body = .join b) :
    ∃ v, effect f none (lockEffect f (reached f s)) = some (depart .noSponsor v) ∧ Leaving f s v := by
  have own : s.mship.table[s.straps.number].state = .joining := ok.own.2.1 filling
  have known : isMember (reached f s).mship.table f.head.sender = true :=
    (isMember_reached f s _).trans ((isMember_iff _ _).2 sender)
  have silent : releaseLocks f.head.sender (reached f s)
      = (reached f s).withLocks ((reached f s).locks.map (yieldEntry f.head.sender)) := by
    refine releaseLocks_silent (w := reached f s)
      (ok.locks.of_members fun y member => .inl ((reached_state f s y).trans member)) _ ?_
    exact fun member => nomatch own.symm.trans ((reached_state f s s.straps.number).symm.trans member)
  have lowest : lowestMember (makeAbsent f.head.sender (reached f s).mship.table) = none :=
    makeAbsent_lowest fun y other => by
      rw [reached_state]
      exact alone y other
  obtain body | ⟨b, body⟩ := kinds
  · have locked : lockEffect f (reached f s) = releaseLocks f.head.sender (reached f s) := by
      rw [lockEffect, body]
      exact if_pos known
    obtain ⟨u, forgot⟩ := sponsorForget_changes f.head.sender (withdrawDrops f.head.sender (setSilence f.head.sender none
      (changeTable (makeAbsent f.head.sender (reached f s).mship.table)
        ((reached f s).withLocks ((reached f s).locks.map (yieldEntry f.head.sender))))))
    have made : applyLeave f.head.sender ((reached f s).withLocks ((reached f s).locks.map (yieldEntry f.head.sender)))
        = afterRemoval f.head.sender (isMember (reached f s).mship.table f.head.sender) .leave
          ((withdrawDrops f.head.sender (setSilence f.head.sender none (changeTable
            (makeAbsent f.head.sender (reached f s).mship.table)
            ((reached f s).withLocks ((reached f s).locks.map (yieldEntry f.head.sender)))))).withSponsor u) := by
      rw [← forgot]
      exact (if_pos known).trans (if_neg peer)
    have whole : effect f none (lockEffect f (reached f s)) = some (applyLeave f.head.sender
        ((reached f s).withLocks ((reached f s).locks.map (yieldEntry f.head.sender)))) := by
      rw [locked, silent, effect, body]
    have departs := made.trans (afterRemoval_departs filling lowest)
    exact ⟨_, whole.trans (congrArg some departs),
      (((((Leaving.reached f s).withLocks _).changeTable _).setSilence _ _).withdrawDrops _).withSponsor u⟩
  · have locked : lockEffect f (reached f s) = releaseLocks f.head.sender (reached f s) := by
      rw [lockEffect, body]
      exact if_pos ⟨peer, known⟩
    have member : (reached f s).mship.table[f.head.sender].state = .member := (reached_state f s _).trans sender
    have made : applyJoin f.head.sender f.head.seq b
          ((reached f s).withLocks ((reached f s).locks.map (yieldEntry f.head.sender)))
        = afterRemoval f.head.sender true (rejoinReason b) (changeTable (makeAbsent f.head.sender (reached f s).mship.table)
            (setSilence f.head.sender none (withdrawDrops f.head.sender (forgetStranger f.head.sender
              ((reached f s).withLocks ((reached f s).locks.map (yieldEntry f.head.sender))))))) := by
      unfold applyJoin
      dsimp only
      rw [show (withdrawDrops f.head.sender (forgetStranger f.head.sender
        ((reached f s).withLocks ((reached f s).locks.map (yieldEntry f.head.sender))))).mship.table
          = (reached f s).mship.table from rfl,
        member]
      dsimp only
      rw [admitJoiner, show (changeTable (makeAbsent f.head.sender (reached f s).mship.table) (setSilence f.head.sender none
        (withdrawDrops f.head.sender (forgetStranger f.head.sender
          ((reached f s).withLocks ((reached f s).locks.map (yieldEntry f.head.sender))))))).mship.table
        = makeAbsent f.head.sender (reached f s).mship.table from rfl, lowest]
    have whole : effect f none (lockEffect f (reached f s)) = some (applyJoin f.head.sender f.head.seq b
        ((reached f s).withLocks ((reached f s).locks.map (yieldEntry f.head.sender)))) := by
      rw [locked, silent, effect, body]
      exact congrArg some (if_neg peer)
    have departs := made.trans (afterRemoval_departs filling lowest)
    exact ⟨_, whole.trans (congrArg some departs),
      (((((Leaving.reached f s).withLocks _).forgetStranger _).withdrawDrops _).setSilence _ _).changeTable _⟩

end Sys2Proof.Machine

namespace Sys2Proof

open Sys2Proof.Machine Sys2Proof.Safety

/-- Settles O41: the station expelled, and the joiner left without a MEMBER. -/
theorem removalClearsStation : Obligations.RemovalClearsStation := by
  intro s f x law ports sender
  have ok := (groupLaw_iff s).1 law
  refine ⟨fun reason applies member cause => ?_, fun filling its alone hears group fresh causes => ?_⟩
  · have holder : isHolder s.mship.state = true := applies.2.1.1
    have peer : f.head.sender ≠ s.straps.number := applies.2.1.2.1
    have own : s.mship.table[s.straps.number].state = .member := ok.own.1 member
    have other : x ≠ s.straps.number := by
      obtain ⟨-, rfl, -⟩ | ⟨other, -⟩ := cause
      · exact peer
      · exact other
    have listed : s.mship.table[x].state ≠ .absent := by
      obtain ⟨-, rfl, -⟩ | ⟨-, listed, -⟩ := cause
      · rw [sender]; nofun
      · exact listed
    obtain ⟨l, p, locked⟩ := lockEffect_changes f (reached f s)
    have known : isMember (reached f s).mship.table f.head.sender = true :=
      (isMember_reached f s _).trans ((isMember_iff _ _).2 sender)
    have entry : ∀ r : Region, (lockEffect f (reached f s)).locks[r] = yieldEntry x s.locks[r] := by
      obtain ⟨body, rfl, -⟩ | ⟨-, -, ⟨body, -⟩ | ⟨body, -⟩⟩ := cause
      · exact lockEffect_leave known body
      · exact lockEffect_drop ok known other body
      · exact lockEffect_drop ok known other body
    have made : effect f none (lockEffect f (reached f s)) = some (expel x reason (lockEffect f (reached f s))) := by
      have known : isMember (lockEffect f (reached f s)).mship.table f.head.sender = true := by
        rw [lockEffect_mship]
        exact known
      have straps : self (lockEffect f (reached f s)) = s.straps.number := by
        rw [self, lockEffect_straps]
        rfl
      have target : isTableSender (lockEffect f (reached f s)).mship.table x = true := by
        rw [lockEffect_mship, isTableSender, reached_state]
        exact bne_iff_ne.2 listed
      obtain ⟨body, rfl, rfl⟩ | ⟨-, -, ⟨body, rfl⟩ | ⟨body, rfl⟩⟩ := cause
      · rw [effect, body, applyLeave, if_pos known, straps, if_neg peer]
      · rw [effect, body]
        exact congrArg some (applyDrop_expels known (by rw [straps]; exact other) target)
      · rw [effect, body]
        exact congrArg some (applyDrop_expels known (by rw [straps]; exact other) target)
    have removed : Expelled x reason (lockEffect f (reached f s)) (expel x reason (lockEffect f (reached f s))) := by
      refine expel_expels (z := s.straps.number) reason ?_ ?_ other.symm ?_
      all_goals rw [lockEffect_mship]
      · rw [reached_state]; exact listed
      · rw [show (reached f s).mship.state = s.mship.state from rfl, member]; nofun
      · rw [reached_state]; exact own
    have follows := removed.follows
    have run := exec_effect applies made (by rw [follows.bus, locked]; rfl) (by rw [follows.state, locked]; exact holder)
    have after := frame_groupOk law run
    have out : (expel x reason (lockEffect f (reached f s))).mship.table[x].state ≠ .member := by
      rw [removed.gone]
      nofun
    refine ⟨_, run, removed.gone, fun y differ => ⟨?_, after.sponsor_ne out y⟩, fun r => ?_, ?_, fun d mem => ?_,
      fun listed => ?_,
      removed.stranger, removed.last, rfl, ?_, ?_, ?_, ?_, ?_, ?_, ?_⟩
    · exact (removed.states y differ).trans (by rw [lockEffect_mship, reached_state])
    · exact (congrArg (fun l : Vector RegionEntry 16 => l[r]) follows.locks).trans (entry r)
    · refine (congrArg (fun v : Vector (Option Nat) 16 => v[x]) follows.silence).trans ?_
      exact (getElem_set_fin _ _ _ _).trans (if_pos rfl)
    · have mem : d ∈ (expel x reason (lockEffect f (reached f s))).tx.drops := mem
      rw [follows.drops] at mem
      exact bne_iff_ne.1 (List.mem_filter.1 mem).2
    · have gone := congrArg MemberEntry.state removed.gone
      cases gone.symm.trans ((after.sponsor.2 x).1 listed).1
    · exact follows.access.trans (by rw [locked]; rfl)
    · exact follows.state.trans (by rw [locked]; exact member)
    · exact follows.mem.trans (by rw [locked]; rfl)
    · exact follows.cells.trans (by rw [locked]; rfl)
    · exact follows.bundle.trans (by rw [locked]; rfl)
    · exact follows.straps.trans (by rw [locked]; rfl)
    · exact follows.pending.trans (by rw [locked]; rfl)
  · subst its
    obtain ⟨v, made, leaving⟩ := effect_noSponsor ok filling group.2.1 sender alone (causes.imp_left fun leave => leave.1)
    have next : checkSeq f (setDoubt .clear (heardState f s)) = .applied := by
      obtain ⟨-, next⟩ | ⟨b, join⟩ := causes
      · exact checkSeq_next (s := setDoubt .clear (heardState f s)) next
      · refine checkSeq_join (w := setDoubt .clear (heardState f s)) join ?_
        rw [show (setDoubt .clear (heardState f s)).mship.table[f.head.sender].state = .member from sender]
        nofun
    obtain ⟨outside, emptied, last, access⟩ := depart_outside (r := .noSponsor) (s := v) (by decide) (busAfter f false s.bus)
    have out : isHolder (depart .noSponsor v).mship.state = false := by
      rw [show (depart .noSponsor v).mship.state = .outside from outside]
      rfl
    refine ⟨_, exec_sequenced hears group next fresh made ((depart_bus _ v).trans leaving.bus) out, ?_, outside, emptied,
      last,
      fun r mem => ?_, rfl, access.trans leaving.access⟩
    · exact departed_of (depart_departed (s := v) .noSponsor
        (portLaw_of_port ports leaving.port) leaving.listening) leaving.mem
        leaving.cells leaving.limit leaving.auto leaving.port leaving.seq leaving.last leaving.straps leaving.pending
    · rw [← leaving.port]
      exact depart_memberOut mem

end Sys2Proof
end

section
/-! A JOIN heard at a table holder. -/

namespace Sys2Proof.Machine

open Sys2Proof.Safety

/-! ### The joiner admitted (R81) -/

theorem lowestMember_eq {t : Vector MemberEntry 16} {z : Station} (member : t[z].state = .member)
    (lowest : ∀ y, y < z → t[(y : Station)].state ≠ .member) : lowestMember t = some z := by
  refine List.find?_eq_some_iff_getElem.2 ⟨(isMember_iff _ _).2 member, z.val, ?_, ?_, fun j before => ?_⟩
  · rw [stations, List.length_finRange]
    exact z.isLt
  · simp [stations]
  · have at_j : stations[j]'(by rw [stations, List.length_finRange]; omega) = ⟨j, by omega⟩ := by simp [stations]
    rw [at_j, isMember_not (lowest ⟨j, by omega⟩ before)]
    rfl

/-- The sponsor list after a joiner's admission under sponsor z. -/
def admittedList (x z : Station) (w : State) : SponsorUnit :=
  if z = w.straps.number then { w.sponsor with joiners := w.sponsor.joiners ++ [x] } else w.sponsor

theorem admitJoiner_lowest {x z : Station} {q : Seq} {w : State} (lowest : lowestMember w.mship.table = some z) :
    admitJoiner x q w = startSilence x
      ((changeTable (makeJoining x q z w.mship.table) w).withSponsor (admittedList x z w)) := by
  unfold admitJoiner admittedList
  rw [lowest]
  dsimp only
  by_cases here : z = w.straps.number
  · rw [if_pos here, if_pos (show z = self (changeTable (makeJoining x q z w.mship.table) w) from here)]
    rfl
  · rw [if_neg here, if_neg (show ¬ z = self (changeTable (makeJoining x q z w.mship.table) w) from here)]
    rfl

theorem makeJoining_entry (x : Station) (q : Seq) (z : Station) (t : Vector MemberEntry 16) (y : Station) :
    (makeJoining x q z t)[y] = if y = x then
      { state := .joining, lastSeq := q, sponsor := some z, joinPlace := some (joiningCount t) } else t[y] :=
  getElem_set_fin t x y _

/-- A station whose entry stays as it is stays in the foreign-reported set (R32). -/
theorem changeTable_remembers {t : Vector MemberEntry 16} {w : State} {y : Station} (same : t[y] = w.mship.table[y]) :
    flag (changeTable t w).apply.foreign y = flag w.apply.foreign y := by
  refine (flag_and _ _ y).trans ?_
  rw [flag_flagsOf, same, sameEntry, beq_self_eq_true, beq_self_eq_true, beq_self_eq_true]
  exact Bool.and_true _

theorem startSilence_member {x : Station} {w : State} (member : w.mship.state = .member) :
    startSilence x w = setSilence x (some 16384) w := if_pos member

theorem startSilence_changes (x : Station) (w : State) : ∃ m, startSilence x w = w.withMship m ∧ m.table = w.mship.table
    ∧ m.state = w.mship.state := by
  unfold startSilence
  split
  · exact ⟨_, rfl, rfl, rfl⟩
  · exact ⟨w.mship, rfl, rfl, rfl⟩

/-! ### The queued DROPs of a joiner (R81) -/

/-- A DROP that waits for a station's silence is a DROP naming it. -/
theorem withdrawn_twice (x : Station) (ds : List DropEntry) :
    ((ds.filter fun d => !(d.target == x && d.reason == .silent && d.cls == .turn)).filter (·.target != x))
      = ds.filter fun d => decide (d.target ≠ x) := by
  rw [List.filter_filter]
  refine List.filter_congr fun d _ => ?_
  by_cases its : d.target = x
  · simp [its]
  · simp [its]

theorem dropsStaging {f : Frame} {b : Bool} (join : f.body = .join b) (o : Option Staging) :
    (o.filter fun st => st.sender == f.head.sender && keepsStaging f.body) = none := by
  rw [join]
  cases o with
  | none => rfl
  | some st => exact Option.filter_some_neg (by simp [keepsStaging])

/-- What a JOIN of a station with no entry finds: no sequence is recorded, and no lock passes on. -/
def arriving (f : Frame) (s : State) : State :=
  setStaging none (signOfLife f.head.sender (setDoubt .clear (heardState f s)))

theorem takeFrame_newcomer {s : State} {f : Frame} {b : Bool} (join : f.body = .join b)
    (absent : s.mship.table[f.head.sender].state = .absent) (quiet : NoOwnStaging s) :
    takeFrame f none (signOfLife f.head.sender (setDoubt .clear (heardState f s))) = effect f none (arriving f s) := by
  generalize hw : signOfLife f.head.sender (setDoubt .clear (heardState f s)) = w
  have table : w.mship.table = s.mship.table := by rw [← hw]; rfl
  have straps : w.straps = s.straps := by rw [← hw]; rfl
  have apply : w.apply = { s.apply with doubt := .clear } := by rw [← hw]; rfl
  have recorded : recordSeq f.head.sender f.head.seq w = w :=
    if_neg (by rw [table, isTableSender, absent]; nofun)
  have locked : lockEffect f w = w := by
    rw [lockEffect, join]
    refine if_neg fun member => ?_
    rw [isMember_iff, table, absent] at member
    exact nomatch member.2
  rw [takeFrame, recorded, locked, stagingStep_peer (fun st its => by
    rw [apply] at its
    rw [straps]
    exact quiet st its), dropsStaging join, ← hw]
  rfl

theorem effect_join {f : Frame} {b : Bool} {w : State} (join : f.body = .join b) (peer : f.head.sender ≠ w.straps.number) :
    effect f none w = some (applyJoin f.head.sender f.head.seq b w) := by
  rw [effect, join]
  exact congrArg some (if_neg peer)

theorem applyJoin_absent {x : Station} {q : Seq} {b : Bool} {w : State} (absent : w.mship.table[x].state = .absent) :
    applyJoin x q b w = admitJoiner x q (withdrawDrops x (forgetStranger x w)) := by
  unfold applyJoin
  dsimp only
  rw [show (withdrawDrops x (forgetStranger x w)).mship.table = w.mship.table from rfl, absent]

theorem applyJoin_member {x : Station} {q : Seq} {b : Bool} {w : State} (member : w.mship.table[x].state = .member) :
    applyJoin x q b w = afterRemoval x true (rejoinReason b) (admitJoiner x q (changeTable (makeAbsent x w.mship.table)
      (setSilence x none (withdrawDrops x (forgetStranger x w))))) := by
  unfold applyJoin
  dsimp only
  rw [show (withdrawDrops x (forgetStranger x w)).mship.table = w.mship.table from rfl, member]

theorem applyJoin_joining {x : Station} {q : Seq} {b : Bool} {w : State} (joining : w.mship.table[x].state = .joining) :
    applyJoin x q b w = (withdrawDrops x (forgetStranger x w)).withSponsor
      (if w.sponsor.joiners.head? = some x then { w.sponsor with cursor := 0 } else w.sponsor) := by
  unfold applyJoin
  dsimp only
  rw [show (withdrawDrops x (forgetStranger x w)).mship.table = w.mship.table from rfl, joining]
  dsimp only
  rw [show (withdrawDrops x (forgetStranger x w)).sponsor = w.sponsor from rfl]
  split <;> rfl

/-- The state in which a station without an entry is admitted. -/
def greeted (f : Frame) (s : State) : State :=
  { s with
    bus := (hearing f s).bus
    access := { s.access with reference := some f.head.sender }
    mship := { s.mship with silence := silenceAfter f.head.sender s.mship.silence, listening := true, listen := none }
    apply := { s.apply with doubt := .clear, staging := none, foreign := flagClear s.apply.foreign f.head.sender }
    tx := { s.tx with drops := s.tx.drops.filter fun d => decide (d.target ≠ f.head.sender) } }

theorem greeted_eq (f : Frame) (s : State) :
    withdrawDrops f.head.sender (forgetStranger f.head.sender (arriving f s)) = greeted f s := by
  have drops := withdrawn_twice f.head.sender s.tx.drops
  unfold greeted
  rw [← drops]
  unfold arriving heardState signOfLife withdrawSilentDrop setSilence setDoubt setStaging forgetStranger withdrawDrops
  dsimp only [State.withTx, State.withApply, State.withMship, hearing, State.withBus]
  rfl

/-- What the JOIN of a station leaves before its admission. -/
structure Greeted (f : Frame) (s w : State) : Prop where
  table : w.mship.table = s.mship.table
  state : w.mship.state = s.mship.state
  silence : w.mship.silence = silenceAfter f.head.sender s.mship.silence
  sponsor : w.sponsor = s.sponsor
  foreign : w.apply.foreign = flagClear s.apply.foreign f.head.sender
  doubt : w.apply.doubt = .clear
  bus : w.bus = (hearing f s).bus
  access : w.access = { s.access with reference := some f.head.sender }
  tx : w.tx = { s.tx with drops := s.tx.drops.filter fun d => decide (d.target ≠ f.head.sender) }
  mem : w.mem = s.mem
  cells : w.cells = s.cells
  locks : w.locks = s.locks
  bundle : w.bundle = s.bundle
  mend : w.mend = s.mend
  port : w.port = s.port
  straps : w.straps = s.straps
  pending : w.pending = s.pending

theorem greeted_greeted (f : Frame) (s : State) : Greeted f s (greeted f s) :=
  ⟨rfl, rfl, rfl, rfl, rfl, rfl, rfl, rfl, rfl, rfl, rfl, rfl, rfl, rfl, rfl, rfl, rfl⟩

/-- The first JOIN of a station without an entry. -/
theorem exec_newcomer {s : State} {f : Frame} {b : Bool} (hears : Hears s f) (holder : isHolder s.mship.state = true)
    (peer : f.head.sender ≠ s.straps.number) (clear : ∀ x q, s.apply.doubt ≠ .known x q) (quiet : NoOwnStaging s)
    (join : f.body = .join b) (absent : s.mship.table[f.head.sender].state = .absent) {z : Station}
    (lowest : lowestMember s.mship.table = some z) :
    ∃ w, Greeted f s w ∧ exec (frameCommand f) s = .next ((startSilence f.head.sender ((changeTable
      (makeJoining f.head.sender f.head.seq z w.mship.table) w).withSponsor (admittedList f.head.sender z w))).withBus
        (busAfter f true s.bus)) := by
  have made : takeFrame f none (signOfLife f.head.sender (setDoubt .clear (heardState f s)))
      = some (admitJoiner f.head.sender f.head.seq (greeted f s)) := by
    rw [takeFrame_newcomer join absent quiet, effect_join (w := arriving f s) join peer,
      applyJoin_absent (w := arriving f s) absent, greeted_eq]
  have same := greeted_greeted f s
  generalize greeted f s = w at made same
  rw [admitJoiner_lowest (by rw [same.table]; exact lowest)] at made
  refine ⟨w, same, ?_⟩
  obtain ⟨m, started, -, state⟩ := startSilence_changes f.head.sender ((changeTable
    (makeJoining f.head.sender f.head.seq z w.mship.table) w).withSponsor (admittedList f.head.sender z w))
  refine exec_handled hears holder ?_ (by rw [started]; exact same.bus)
  refine (handleAtHolder_applied (isForeign_of_join (s := heardState f s) peer join)
    (resolveDoubt_free (s := heardState f s) clear)
    (checkSeq_join join (w := setDoubt .clear (heardState f s)) fun joining =>
      nomatch absent.symm.trans joining) made).trans ?_
  rw [started, State.withMship_mship, state]
  exact congrArg _ ((congrArg isHolder same.state).trans holder)

/-! ### A JOIN of a station with an entry (R26, R83) -/

/-- The state in which the JOIN of a station with an entry has its effect, its locks apart. -/
def regreeted (f : Frame) (s : State) : State :=
  { reached f s with
    apply := { s.apply with doubt := .clear, staging := none, foreign := flagClear s.apply.foreign f.head.sender }
    tx := { s.tx with drops := s.tx.drops.filter fun d => decide (d.target ≠ f.head.sender) } }

theorem regreeted_eq {f : Frame} {b : Bool} (join : f.body = .join b) (s : State) :
    withdrawDrops f.head.sender (forgetStranger f.head.sender (reached f s)) = regreeted f s := by
  have drops := withdrawn_twice f.head.sender s.tx.drops
  have staging := dropsStaging join s.apply.staging
  unfold regreeted
  rw [← drops, ← staging]
  unfold forgetStranger withdrawDrops
  dsimp only [State.withTx, State.withApply, reached, taken]

theorem forgets_released (x : Station) (l : Vector RegionEntry 16) (p : HostPort) (w : State) :
    withdrawDrops x (forgetStranger x ((w.withLocks l).withPort p))
      = ((withdrawDrops x (forgetStranger x w)).withLocks l).withPort p :=
  rfl

/-- The state in which the rejoin of a MEMBER has its effect: its locks have passed on. -/
structure Yielded (f : Frame) (s w : State) : Prop where
  table : w.mship.table = (reached f s).mship.table
  state : w.mship.state = s.mship.state
  silence : w.mship.silence = silenceAfter f.head.sender s.mship.silence
  sponsor : w.sponsor = s.sponsor
  bus : w.bus = (hearing f s).bus
  access : w.access = { s.access with reference := some f.head.sender }
  drops : w.tx.drops = s.tx.drops.filter fun d => decide (d.target ≠ f.head.sender)
  mem : w.mem = s.mem
  cells : w.cells = s.cells
  locks : w.locks = s.locks.map (yieldEntry f.head.sender)
  bundle : w.bundle = s.bundle
  straps : w.straps = s.straps
  pending : w.pending = s.pending

theorem yielded_regreeted (f : Frame) (s : State) (p : HostPort) :
    Yielded f s (((regreeted f s).withLocks (s.locks.map (yieldEntry f.head.sender))).withPort p) :=
  ⟨rfl, rfl, rfl, rfl, rfl, rfl, rfl, rfl, rfl, rfl, rfl, rfl, rfl⟩

/-- The effect of the rejoin of a MEMBER. -/
theorem effect_rejoin {s : State} {f : Frame} {b : Bool} (join : f.body = .join b) (peer : f.head.sender ≠ s.straps.number)
    (member : s.mship.table[f.head.sender].state = .member) :
    ∃ w, Yielded f s w ∧ effect f none (lockEffect f (reached f s)) = some (afterRemoval f.head.sender true (rejoinReason b)
      (admitJoiner f.head.sender f.head.seq (changeTable (makeAbsent f.head.sender w.mship.table)
        (setSilence f.head.sender none w)))) := by
  have known : isMember (reached f s).mship.table f.head.sender = true :=
    (isMember_reached f s _).trans ((isMember_iff _ _).2 member)
  obtain ⟨p, released⟩ := releaseLocks_changes f.head.sender (reached f s)
  have locked : lockEffect f (reached f s)
      = ((reached f s).withLocks (s.locks.map (yieldEntry f.head.sender))).withPort p := by
    rw [lockEffect, join]
    exact (if_pos ⟨peer, known⟩).trans released
  refine ⟨_, yielded_regreeted f s p, ?_⟩
  rw [locked, effect_join (w := ((reached f s).withLocks _).withPort p) join peer,
    applyJoin_member (w := ((reached f s).withLocks _).withPort p) ((reached_state f s _).trans member),
    forgets_released, regreeted_eq join]
  rfl

/-- The rejoin of a MEMBER: what it leaves, the sponsor of its own joiners being z (R42, R82, R83). -/
structure Rejoined (x z : Station) (q : Seq) (reason : OutReason) (w t : State) : Prop where
  follows : Follows (setSilence x (some 16384) w) t
  entry : t.mship.table[x]
    = { state := .joining, lastSeq := q, sponsor := some z, joinPlace := some (joiningCount w.mship.table) }
  others : ∀ y : Station, y ≠ x → t.mship.table[y] = { w.mship.table[y] with
    sponsor := if w.mship.table[y].sponsor = some x then some z else w.mship.table[y].sponsor }
  joiners : z = w.straps.number → w.sponsor.joiners ++ [x] <+: t.sponsor.joiners
  replies : ∀ r ∈ t.tx.replies, r.requester ≠ x
  last : t.port.notices.getLast? = some (.memberOut x reason) ∨ t.port.noticesDropped = true
  stranger : flag t.apply.foreign x = false

theorem placeAfter_none (k : Nat) : placeAfter none k = k := rfl

theorem makeAbsent_member {t : Vector MemberEntry 16} {x : Station} (place : t[x].joinPlace = none) (y : Station) :
    (makeAbsent x t)[y] = if y = x then absentEntry else t[y] := by
  rw [makeAbsent, leaveJoinOrder_getElem, place]
  split
  · rfl
  · rw [show placeAfter none = id from rfl, Option.map_id]
    rfl

theorem makeAbsent_joiningCount {t : Vector MemberEntry 16} {x : Station} (member : t[x].state = .member) :
    joiningCount (makeAbsent x t) = joiningCount t := by
  rw [joiningCount_eq, joiningCount_eq]
  congr 1
  ext y
  rw [mem_joining, mem_joining, makeAbsent_state]
  split
  · rename_i its
    rw [its, member]
    exact ⟨nofun, nofun⟩
  · exact .rfl

/-- A MEMBER removed and admitted again under sponsor z, before the steps that follow. -/
def readmitted (x z : Station) (q : Seq) (w : State) : State :=
  { w with
    mship := { w.mship with
      table := makeJoining x q z (makeAbsent x w.mship.table)
      silence := w.mship.silence.set x.val (some 16384) }
    apply := (changeTable (makeJoining x q z (makeAbsent x w.mship.table))
      (changeTable (makeAbsent x w.mship.table) w)).apply
    sponsor := admittedList x z w }

theorem admitJoiner_again {x z : Station} {q : Seq} {w : State} (lowest : lowestMember (makeAbsent x w.mship.table) = some z)
    (state : w.mship.state = .member) :
    admitJoiner x q (changeTable (makeAbsent x w.mship.table) (setSilence x none w)) = readmitted x z q w := by
  have timers : w.mship.silence.set x.val (some 16384) = (w.mship.silence.set x.val none).set x.val (some 16384) :=
    (Vector.set_set _ _).symm
  have list : admittedList x z (changeTable (makeAbsent x w.mship.table) (setSilence x none w)) = admittedList x z w := rfl
  have admitted := admitJoiner_lowest (x := x) (q := q)
    (w := changeTable (makeAbsent x w.mship.table) (setSilence x none w)) lowest
  rw [list] at admitted
  rw [admitted]
  clear admitted list
  unfold startSilence
  rw [if_pos (by exact state)]
  unfold readmitted changeTable setTable setSilence
  rw [timers]
  dsimp only [State.withMship, State.withApply, State.withSponsor]
  rfl

theorem follows_readmitted (x z : Station) (q : Seq) (w : State) :
    Follows (setSilence x (some 16384) w) (readmitted x z q w) :=
  ⟨rfl, rfl, rfl, rfl, rfl, rfl, rfl, rfl, rfl, rfl, rfl, fun y clear =>
    (follows_changeTable (makeJoining x q z (makeAbsent x w.mship.table))
      (changeTable (makeAbsent x w.mship.table) w)).foreign y
      ((follows_changeTable (makeAbsent x w.mship.table) w).foreign y clear)⟩

theorem rejoin_rejoined {x z : Station} {q : Seq} {reason : OutReason} {w : State} (ok : TableOk none w.mship.table)
    (state : w.mship.state = .member) (peer : x ≠ w.straps.number) (member : w.mship.table[x].state = .member)
    (other : z ≠ x)
    (sponsor : w.mship.table[z].state = .member)
    (lower : ∀ y, y < z → y ≠ x → w.mship.table[(y : Station)].state ≠ .member) :
    Rejoined x z q reason w (afterRemoval x true reason (admitJoiner x q (changeTable (makeAbsent x w.mship.table)
      (setSilence x none w)))) := by
  obtain ⟨-, place⟩ := ok.others x (by rw [member]; nofun)
  have absent := makeAbsent_member place
  have count := makeAbsent_joiningCount member
  have lowest : lowestMember (makeAbsent x w.mship.table) = some z := by
    refine lowestMember_eq ?_ fun y before => ?_
    · rw [absent, if_neg other]
      exact sponsor
    · rw [absent]
      split
      · nofun
      · exact lower y before ‹_›
  have entries := fun y => (makeJoining_entry x q z (makeAbsent x w.mship.table) y).trans (by rw [absent, count])
  have gone : flag (changeTable (makeAbsent x w.mship.table) w).apply.foreign x = false := by
    refine changeTable_forgets ?_
    rw [absent, if_pos rfl]
    exact fun same => nomatch same.trans member
  have stranger : flag (readmitted x z q w).apply.foreign x = false :=
    (follows_changeTable (makeJoining x q z (makeAbsent x w.mship.table)) _).foreign x gone
  have first := follows_readmitted x z q w
  have table : (readmitted x z q w).mship.table = makeJoining x q z (makeAbsent x w.mship.table) := rfl
  have list : (readmitted x z q w).sponsor = admittedList x z w := rfl
  have straps := first.straps
  rw [admitJoiner_again lowest state]
  generalize readmitted x z q w = v at first table list straps stranger
  rw [afterRemoval_stays (fun filling => nomatch state.symm.trans (first.state.symm.trans filling)), if_pos rfl]
  obtain ⟨u, handed, joiners⟩ := reassign_some (y := x) (z := z) (s := v) (by
    rw [table]
    refine lowestMember_eq ?_ fun y before => ?_
    · rw [entries, if_neg other, if_neg other]
      exact sponsor
    · rw [entries]
      split
      · nofun
      · exact lower y before ‹_›)
  obtain ⟨p, m, e, lost⟩ := mendPeerLost_changes x (reassign x v)
  obtain ⟨p', posted, -⟩ := postNotice_changes (.memberOut x reason) (mendPeerLost x (reassign x v))
  have follows : Follows (setSilence x (some 16384) w) (postNotice (.memberOut x reason) (mendPeerLost x (reassign x v))) :=
    first.trans (((follows_reassign x v).trans (follows_mendPeerLost x _)).trans (follows_postNotice _ _))
  have after : (postNotice (.memberOut x reason) (mendPeerLost x (reassign x v))).mship.table
      = (makeJoining x q z (makeAbsent x w.mship.table)).map (responsor x z) := by
    rw [posted, lost, handed, ← table]
    rfl
  have sponsored : (postNotice (.memberOut x reason) (mendPeerLost x (reassign x v))).sponsor = u := by
    rw [posted, lost, handed]
    rfl
  have replied : (postNotice (.memberOut x reason) (mendPeerLost x (reassign x v))).tx.replies
      = (reassign x v).tx.replies.filter (·.requester != x) := by
    rw [posted, lost]
    rfl
  refine ⟨follows, ?_, fun y apart => ?_, fun here => ?_, fun r mem => ?_, postNotice_last _ _, ?_⟩
  · rw [after, getElem_map_fin, entries, if_pos rfl]
    exact if_neg fun its => other (Option.some.inj its.2)
  · rw [after, getElem_map_fin, entries, if_neg apart, if_neg apart, responsor]
    by_cases mine : w.mship.table[y].sponsor = some x
    · have joining : w.mship.table[y].state = .joining := by
        by_contra no
        rw [(ok.others y no).1] at mine
        cases mine
      rw [if_pos ⟨joining, mine⟩, if_pos mine]
    · rw [if_neg fun its => mine its.2, if_neg mine]
  · rw [sponsored, joiners, show v.straps = w.straps from straps, if_neg peer, list, admittedList, if_pos here]
    exact List.prefix_append _ _
  · rw [replied, List.mem_filter, bne_iff_ne] at mem
    exact mem.2
  · exact ((follows_reassign x v).trans ((follows_mendPeerLost x _).trans (follows_postNotice _ _))).foreign x stranger

end Sys2Proof.Machine

namespace Sys2Proof

open Sys2Proof.Machine Sys2Proof.Safety

/-- Settles O40: the JOIN of a station without an entry, of a MEMBER, and of a JOINING station. -/
theorem joinAdmitsStation : Obligations.JoinAdmitsStation := by
  intro s h rejoin f hears holder peer clear quiet x e stranger
  refine ⟨fun z absent member lower => ?_, fun z its law member other sponsor lower => ?_, fun joining fresh => ?_,
    fun joining again last => ?_⟩
  · obtain ⟨w, same, run⟩ := exec_newcomer (f := f) hears holder peer clear quiet rfl absent (lowestMember_eq member lower)
    have remembers : ∀ y : Station, y ≠ h.sender →
        flag (changeTable (makeJoining h.sender h.seq z w.mship.table) w).apply.foreign y = flag s.apply.foreign y := by
      intro y other
      rw [changeTable_remembers ((makeJoining_entry _ _ _ _ y).trans (if_neg other)), same.foreign, flag_flagClear,
        decide_eq_true other, Bool.and_true]
    have forgets : flag (changeTable (makeJoining h.sender h.seq z w.mship.table) w).apply.foreign h.sender = false := by
      refine changeTable_forgets ?_
      rw [makeJoining_entry, if_pos rfl, same.table, absent]
      nofun
    obtain ⟨m, started, table, state⟩ := startSilence_changes h.sender
      ((changeTable (makeJoining h.sender h.seq z w.mship.table) w).withSponsor (admittedList h.sender z w))
    rw [started] at run
    refine ⟨_, run, ?_, state.trans same.state, fun at_member => ?_, ?_, forgets, remembers, same.doubt, rfl, same.access,
      same.tx, same.mem, same.cells, same.locks, same.bundle, same.mend, same.port, same.straps, same.pending⟩
    · refine table.trans ?_
      show makeJoining h.sender h.seq z w.mship.table = _
      rw [same.table]
      rfl
    · rw [startSilence_member (show ((changeTable (makeJoining h.sender h.seq z w.mship.table) w).withSponsor
        (admittedList h.sender z w)).mship.state = .member from same.state.trans at_member)] at started
      refine (congrArg (·.mship.silence) started).symm.trans ?_
      show w.mship.silence.set h.sender.val (some 16384) = _
      rw [same.silence]
      exact Vector.set_set _ _
    · show admittedList h.sender z w = _
      rw [admittedList, same.straps, same.sponsor]
  · have ok := (groupLaw_iff s).1 law
    have listed : s.mship.table[h.sender].state ≠ .absent := fun absent => nomatch absent.symm.trans its
    have same := sameEntries_setSeq s.mship.table h.sender h.seq
    obtain ⟨w, yielded, made⟩ := effect_rejoin (f := f) rfl peer its
    have entry : ∀ y : Station, w.mship.table[y]
        = if y = h.sender then { s.mship.table[h.sender] with lastSeq := h.seq } else s.mship.table[y] := fun y => by
      rw [yielded.table]
      exact getElem_set_fin _ _ _ _
    have states : ∀ y : Station, w.mship.table[y].state = s.mship.table[y].state := fun y => by
      rw [yielded.table]
      exact reached_state f s y
    have rejoined := rejoin_rejoined (x := h.sender) (z := z) (q := h.seq) (reason := rejoinReason rejoin) (w := w)
      (by rw [yielded.table]; exact ok.table.of_same same) (yielded.state.trans member) (by rw [yielded.straps]; exact peer)
      ((states _).trans its) other ((states _).trans sponsor) fun y before apart is =>
        lower y before apart ((states y).symm.trans is)
    have next := checkSeq_join (f := f) (w := setDoubt .clear (heardState f s)) rfl fun joining =>
      nomatch its.symm.trans joining
    generalize afterRemoval h.sender true (rejoinReason rejoin) (admitJoiner h.sender h.seq
      (changeTable (makeAbsent h.sender w.mship.table) (setSilence h.sender none w))) = t at made rejoined
    obtain ⟨follows, mine, others, joiners, replies, last, forgot⟩ := rejoined
    have run := exec_sequenced (b := true) hears ⟨holder, peer, listed, clear⟩ next quiet made
      (follows.bus.trans yielded.bus)
      ((congrArg isHolder (follows.state.trans yielded.state)).trans holder)
    refine ⟨_, run, mine.trans ?_, fun y apart => (others y apart).trans ?_, fun r => ?_, follows.silence.trans ?_,
      (frame_groupOk law run).sponsor, fun here => ?_, fun d mem => ?_, replies, last, forgot, rfl,
      follows.access.trans yielded.access, follows.state.trans (yielded.state.trans member), follows.mem.trans yielded.mem,
      follows.cells.trans yielded.cells, follows.bundle.trans yielded.bundle, follows.straps.trans yielded.straps,
      follows.pending.trans yielded.pending⟩
    · rw [yielded.table]
      exact congrArg (fun n => MemberEntry.mk .joining h.seq (some z) (some n)) same.joiningCount
    · rw [entry, if_neg apart]
    · show t.locks[r] = _
      rw [follows.locks]
      show w.locks[r] = _
      rw [yielded.locks, getElem_map_fin]
    · show w.mship.silence.set h.sender.val (some 16384) = _
      rw [yielded.silence]
      exact Vector.set_set _ _
    · have listed := joiners (here.trans (congrArg (·.number) yielded.straps).symm)
      rwa [yielded.sponsor] at listed
    · have kept : d ∈ t.tx.drops := mem
      rw [follows.drops] at kept
      have kept : d ∈ w.tx.drops := kept
      rw [yielded.drops, List.mem_filter] at kept
      exact of_decide_eq_true kept.2
  · have listed : s.mship.table[h.sender].state ≠ .absent := fun absent => nomatch absent.symm.trans joining
    have next : checkSeq f (setDoubt .clear (heardState f s)) = .applied := if_neg fun same => fresh ⟨same.1, same.2.2⟩
    have unlocked : lockEffect f (reached f s) = reached f s := by
      refine if_neg fun member => ?_
      rw [isMember_reached, isMember_iff, joining] at member
      exact nomatch member.2
    have made : effect f none (lockEffect f (reached f s)) = some ((regreeted f s).withSponsor
        (if s.sponsor.joiners.head? = some h.sender then { s.sponsor with cursor := 0 } else s.sponsor)) := by
      rw [unlocked, effect_join (w := reached f s) rfl peer,
        applyJoin_joining (w := reached f s) ((reached_state f s _).trans joining), ← regreeted_eq (f := f) rfl]
      rfl
    exact exec_sequenced hears ⟨holder, peer, listed, clear⟩ next quiet made rfl holder
  · have listed : s.mship.table[h.sender].state ≠ .absent := fun absent => nomatch absent.symm.trans joining
    have next : checkSeq f (setDoubt .clear (heardState f s)) = .duplicate := if_pos ⟨again, joining, last⟩
    exact exec_handled hears holder (handleAtHolder_duplicate (isForeign_of_join (s := heardState f s) peer rfl)
      (resolveDoubt_free (s := heardState f s) clear) next) rfl

end Sys2Proof
end

section
/-! SNAPCELLS at the joiner they fill and at the other table holders. -/

namespace Sys2Proof.Machine

open Sys2Proof.Safety

/-! ### The records of a SNAPCELLS (R10) -/

/-- What a record leaves of its cell: a marked cell stands. -/
def snapped (r : SnapRecord) (e : CellRec) (d : CellData) : CellRec × CellData :=
  if e.fresh = true then (e, d) else match r with
    | .present v n => ({ version := v, check := cellCheck v n, status := .present, fresh := false, upset := false }, n)
    | .missing => ({ e with status := .damaged }, d)

theorem snapped_fresh {r : SnapRecord} {e : CellRec} {d : CellData} (fresh : e.fresh = true) :
    snapped r e d = (e, d) := if_pos fresh

theorem snapped_present {v : Version} {n : CellData} {e : CellRec} {d : CellData} (unmarked : e.fresh = false) :
    snapped (.present v n) e d
      = ({ version := v, check := cellCheck v n, status := .present, fresh := false, upset := false }, n) := by
  rw [snapped, unmarked]
  rfl

theorem snapped_missing {e : CellRec} {d : CellData} (unmarked : e.fresh = false) :
    snapped .missing e d = ({ e with status := .damaged }, d) := by
  rw [snapped, unmarked]
  rfl

theorem applySnapRecord_changes (c : CellIx) (r : SnapRecord) {w : State} (law : Memory.wf w.mem) :
    ∃ (m : Memory) (cs : Vector CellRec 256), applySnapRecord c r w = (w.withMem m).withCells cs ∧ Memory.wf m
      ∧ (cs[c], cellData m c) = snapped r w.cells[c] (cellData w.mem c)
      ∧ ∀ b : CellIx, b ≠ c → cs[b] = w.cells[b] ∧ cellData m b = cellData w.mem b := by
  have set_same : ∀ e : CellRec, (w.cells.set c.val e)[c] = e := fun e => (getElem_set_fin _ _ _ _).trans (if_pos rfl)
  have set_other : ∀ (e : CellRec) (b : CellIx), b ≠ c → (w.cells.set c.val e)[b] = w.cells[b] := fun e b other =>
    (getElem_set_fin _ _ _ _).trans (if_neg other)
  unfold applySnapRecord
  split
  · exact ⟨w.mem, w.cells, rfl, law, (snapped_fresh ‹_›).symm, fun _ _ => ⟨rfl, rfl⟩⟩
  · have unmarked : w.cells[c].fresh = false := Bool.eq_false_iff.2 ‹_›
    cases r with
    | present v d =>
      refine ⟨_, _, writeCell_store c v d false w, writeCellData_wf _ _ law, ?_, fun b other => ⟨set_other _ b other, ?_⟩⟩
      · rw [snapped_present unmarked]
        exact Prod.ext (set_same _) (cellData_writeCellData_same _ _ law)
      · exact cellData_writeCellData_ne _ _ other
    | missing =>
      refine ⟨w.mem, w.cells.set c.val { w.cells[c] with status := .damaged }, rfl, law, ?_, fun b other =>
        ⟨set_other _ b other, rfl⟩⟩
      rw [snapped_missing unmarked]
      exact Prod.ext (set_same _) rfl

theorem groupCell_inj {g : Group} {i j : Fin 8} (same : groupCell g i = groupCell g j) : i = j := by
  have values := congrArg Fin.val same
  simp only [groupCell] at values
  exact Fin.ext (by omega)

/-- The records of distinct cells of a group, each applied, and no other cell changed. -/
theorem snapRecords_fold (g : Group) (recs : Vector SnapRecord 8) {l : List (Fin 8)} (once : l.Nodup) {w : State}
    (law : Memory.wf w.mem) : ∃ (m : Memory) (cs : Vector CellRec 256),
      l.foldl (fun s i => applySnapRecord (groupCell g i) recs[i] s) w = (w.withMem m).withCells cs
      ∧ (∀ i ∈ l, (cs[groupCell g i], cellData m (groupCell g i))
          = snapped recs[i] w.cells[groupCell g i] (cellData w.mem (groupCell g i)))
      ∧ ∀ b : CellIx, (∀ i ∈ l, groupCell g i ≠ b) → cs[b] = w.cells[b] ∧ cellData m b = cellData w.mem b := by
  induction l generalizing w with
  | nil => exact ⟨w.mem, w.cells, rfl, nofun, fun _ _ => ⟨rfl, rfl⟩⟩
  | cons i is ih =>
    obtain ⟨new, others⟩ := List.nodup_cons.1 once
    obtain ⟨m, cs, eq, wf, mine, apart⟩ := applySnapRecord_changes (groupCell g i) recs[i] law
    obtain ⟨m', cs', eq', inside, outside⟩ := ih others (w := (w.withMem m).withCells cs) wf
    have away : ∀ j ∈ is, groupCell g j ≠ groupCell g i := fun j mem same => new (groupCell_inj same ▸ mem)
    refine ⟨m', cs', ?_, fun j mem => ?_, fun b free => ?_⟩
    · rw [List.foldl_cons, eq, eq']
      rfl
    · obtain rfl | mem := List.mem_cons.1 mem
      · obtain ⟨cell, data⟩ := outside (groupCell g j) away
        rw [cell, data]
        exact mine
      · obtain ⟨cell, data⟩ := apart (groupCell g j) (away j mem)
        refine (inside j mem).trans ?_
        exact congr (congrArg (snapped recs[j]) cell) data
    · obtain ⟨this, free⟩ := List.forall_mem_cons.1 free
      obtain ⟨cell, data⟩ := outside b free
      obtain ⟨cell', data'⟩ := apart b this.symm
      exact ⟨cell.trans cell', data.trans data'⟩

/-! ### The end of this station's own fill (R84, R112) -/

/-- The silence timers at the end of the own fill. -/
def peerTimers (n : Station) (t : Vector MemberEntry 16) : Vector (Option Nat) 16 :=
  Vector.ofFn fun x : Fin 16 => if x ≠ n && isTableSender t x then some Config.silenceLimit else none

theorem peerTimers_entry (n : Station) (t : Vector MemberEntry 16) (y : Station) : (peerTimers n t)[y]
    = if y ≠ n ∧ t[y].state ≠ .absent then some 16384 else none := by
  have same : (decide (y ≠ n) && isTableSender t y) = true ↔ y ≠ n ∧ t[y].state ≠ .absent := by
    rw [Bool.and_eq_true, decide_eq_true_iff, isTableSender, bne_iff_ne]
  exact (getElem_ofFn_fin _ _).trans (if_congr same rfl rfl)

/-- The station once its own fill has ended, before its JOIN completes and its first mend begins. -/
def filledState (w : State) : State :=
  { w with
    cells := w.cells.map fun r => { r with fresh := false }
    mship := { w.mship with
      state := .member
      table := makeMember w.straps.number w.mship.table
      silence := peerTimers w.straps.number (makeMember w.straps.number w.mship.table) }
    apply := (changeTable (makeMember w.straps.number w.mship.table) w).apply
    mend := { w.mend with cells := damagedCells (w.cells.map fun r => { r with fresh := false }), current := none } }

theorem endOwnFill_eq (w : State) : endOwnFill w = beginMend (completeJoin .joined (filledState w)) := by
  unfold endOwnFill
  dsimp only
  exact congrArg beginMend (congrArg (completeJoin .joined) rfl)

/-- What the end of the own fill leaves. -/
structure FillEnded (w t : State) : Prop where
  mem : t.mem = w.mem
  cells : t.cells = w.cells.map fun r => { r with fresh := false }
  table : t.mship.table = makeMember w.straps.number w.mship.table
  state : t.mship.state = .member
  silence : ∀ y : Station, t.mship.silence[y]
    = if y ≠ w.straps.number ∧ (makeMember w.straps.number w.mship.table)[y].state ≠ .absent then some 16384 else none
  locks : t.locks = w.locks
  bundle : t.bundle = w.bundle
  straps : t.straps = w.straps
  pending : t.pending = w.pending
  bus : t.bus = w.bus
  doubt : t.apply.doubt = w.apply.doubt
  staging : t.apply.staging = w.apply.staging
  mends : t.mend.cells <:+ damagedCells t.cells
  joined : ∀ k tk, w.port.tickets[k] = some tk → tk.kind = .join → tk.state ≠ .done → liveKind w.port .join = some k →
    t.port.tickets[k] = some { tk with state := .done } ∧ .completion k .join .joined ∈ t.port.notices

theorem completeJoin_changes (w : State) : ∃ p, completeJoin .joined w = w.withPort p := by
  unfold completeJoin
  split
  · exact complete_port _ _ w
  · obtain ⟨p, posted, -⟩ := postNotice_changes (.memberIn (self w)) w
    exact ⟨p, posted⟩

theorem fillEnded_endOwnFill (w : State) : FillEnded w (endOwnFill w) := by
  rw [endOwnFill_eq]
  obtain ⟨p, made⟩ := completeJoin_changes (filledState w)
  obtain ⟨q, m, e, begun, grown, suffix⟩ := beginMend_grown (completeJoin .joined (filledState w))
  rw [begun, made]
  rw [made] at suffix
  refine ⟨rfl, rfl, rfl, rfl, peerTimers_entry _ _, rfl, rfl, rfl, rfl, rfl, rfl, rfl, suffix,
    fun k tk its kind live found => ?_⟩
  have completes : completeJoin .joined (filledState w) = complete k .joined (filledState w) := by
    unfold completeJoin
    rw [show (filledState w).port = w.port from rfl, found]
  have its' : (filledState w).port.tickets[k] = some tk := its
  rw [completes, complete_live its' live] at grown
  refine ⟨?_, grown.notices.subset (List.mem_append_right _ (List.mem_singleton.2 (by rw [kind])))⟩
  show q.tickets[k] = _
  rw [grown.tickets]
  exact (getElem_set_fin _ _ _ _).trans (if_pos rfl)

/-- What the end of another joiner's fill leaves (R84, R101, R105). -/
structure PeerFilled (x : Station) (w t : State) : Prop where
  mem : t.mem = w.mem
  cells : t.cells = w.cells
  table : t.mship.table = makeMember x w.mship.table
  state : t.mship.state = w.mship.state
  locks : t.locks = w.locks
  bundle : t.bundle = w.bundle
  straps : t.straps = w.straps
  pending : t.pending = w.pending
  bus : t.bus = w.bus
  doubt : t.apply.doubt = w.apply.doubt
  staging : t.apply.staging = w.apply.staging
  left : x ∉ t.sponsor.joiners
  last : t.port.notices.getLast? = some (.memberIn x) ∨ t.port.noticesDropped = true

theorem peerFilled_endPeerFill (x : Station) {w : State} (nodup : w.sponsor.joiners.Nodup) :
    PeerFilled x w (endPeerFill x w) := by
  obtain ⟨u, forgot⟩ := sponsorForget_changes x (changeTable (makeMember x w.mship.table) w)
  have list := sponsorForget_joiners x (s := changeTable (makeMember x w.mship.table) w) nodup
  obtain ⟨p, posted, -⟩ := postNotice_changes (.memberIn x) (sponsorForget x (changeTable (makeMember x w.mship.table) w))
  have last := postNotice_last (.memberIn x) (sponsorForget x (changeTable (makeMember x w.mship.table) w))
  have ended : endPeerFill x w = ((changeTable (makeMember x w.mship.table) w).withSponsor u).withPort p := by
    rw [← forgot]
    exact posted
  rw [posted] at last
  rw [forgot] at list
  rw [ended]
  refine ⟨rfl, rfl, rfl, rfl, rfl, rfl, rfl, rfl, rfl, rfl, rfl, fun mem => ?_, last⟩
  have mem : x ∈ w.sponsor.joiners.filter (· != x) := list ▸ mem
  exact absurd rfl (bne_iff_ne.1 (List.mem_filter.1 mem).2)

theorem makeMember_same (x : Station) (t : Vector MemberEntry 16) :
    (makeMember x t)[x] = { t[x] with state := .member, sponsor := none, joinPlace := none } := by
  rw [makeMember, leaveJoinOrder_getElem, if_pos rfl]

theorem damaged_of_mem {c : CellIx} {cs : Vector CellRec 256} (mem : c ∈ damagedCells cs) : cs[c].status = .damaged := by
  rw [damagedCells, List.mem_filter] at mem
  exact beq_iff_eq.1 mem.2

/-- The one live JOIN ticket is the one found. -/
theorem liveKind_join {p : HostPort} {k : TicketNo} {tk : Ticket} (its : p.tickets[k] = some tk) (kind : tk.kind = .join)
    (live : tk.state ≠ .done) (only : ∀ i j u v, p.tickets[(i : TicketNo)] = some u → u.kind = .join → u.state ≠ .done →
      p.tickets[(j : TicketNo)] = some v → v.kind = .join → v.state ≠ .done → i = j) : liveKind p .join = some k :=
  findLive_eq its live (beq_iff_eq.2 kind) fun j u used open_ join =>
    only j k u tk used (beq_iff_eq.1 join) open_ its kind live

/-- The cells of group g as a SNAPCELLS leaves them, their marks cleared with the last group, and every other cell. -/
theorem snapRecords_cells {g : Group} {recs : Vector SnapRecord 8} {s : State} {m : Memory} {cs ds : Vector CellRec 256}
    (inside : ∀ i : Fin 8, (cs[groupCell g i], cellData m (groupCell g i))
      = snapped recs[i] s.cells[groupCell g i] (cellData s.mem (groupCell g i)))
    (outside : ∀ b : CellIx, (∀ i : Fin 8, groupCell g i ≠ b) → cs[b] = s.cells[b] ∧ cellData m b = cellData s.mem b)
    (after : ∀ c : CellIx, ds[c] = { cs[c] with fresh := if g = 31 then false else cs[c].fresh }) :
    (∀ i : Fin 8,
      (s.cells[groupCell g i].fresh = true → ds[groupCell g i]
          = { s.cells[groupCell g i] with fresh := if g = 31 then false else s.cells[groupCell g i].fresh }
        ∧ cellData m (groupCell g i) = cellData s.mem (groupCell g i))
      ∧ (s.cells[groupCell g i].fresh = false → ∀ v d, recs[i] = .present v d →
        ds[groupCell g i] = { version := v, check := cellCheck v d, status := .present, fresh := false, upset := false }
          ∧ cellData m (groupCell g i) = d)
      ∧ (s.cells[groupCell g i].fresh = false → recs[i] = .missing →
        ds[groupCell g i] = { s.cells[groupCell g i] with status := .damaged }
          ∧ cellData m (groupCell g i) = cellData s.mem (groupCell g i)))
    ∧ ∀ c : CellIx, c.val / 8 ≠ g.val →
      ds[c] = { s.cells[c] with fresh := if g = 31 then false else s.cells[c].fresh } ∧ cellData m c = cellData s.mem c := by
  refine ⟨fun i => ?_, fun c apart => ?_⟩
  · have cell := congrArg Prod.fst (inside i)
    have data := congrArg Prod.snd (inside i)
    refine ⟨fun fresh => ?_, fun unmarked v d present => ?_, fun unmarked missing => ?_⟩
    · rw [snapped_fresh fresh] at cell data
      exact ⟨(after _).trans (by rw [show cs[groupCell g i] = _ from cell]), data⟩
    · rw [present, snapped_present unmarked] at cell data
      exact ⟨(after _).trans (by rw [show cs[groupCell g i] = _ from cell, ite_self]), data⟩
    · rw [missing, snapped_missing unmarked] at cell data
      refine ⟨(after _).trans ?_, data⟩
      rw [show cs[groupCell g i] = _ from cell]
      dsimp only
      rw [unmarked, ite_self, ← unmarked]
  · obtain ⟨cell, data⟩ := outside c fun i its => apart (by
      rw [← its]
      simp only [groupCell]
      omega)
    exact ⟨(after c).trans (by rw [cell]), data⟩

/-- A SNAPCELLS changes no lock. -/
theorem lockEffect_snapCells {f : Frame} {x : Station} {g : Group} {recs : Vector SnapRecord 8}
    (body : f.body = .snapCells x g recs)
    (w : State) : lockEffect f w = w := by
  rw [lockEffect, body]

end Sys2Proof.Machine

namespace Sys2Proof

open Sys2Proof.Machine Sys2Proof.Safety

/-- Settles O50: the cells of the group filled, the own fill's end, and a peer's. -/
theorem snapCellsFillTheJoiner : Obligations.SnapCellsFillTheJoiner := by
  intro s h x g recs f applies store law joining sponsored only
  have ok := (groupLaw_iff s).1 law
  have holder : isHolder s.mship.state = true := applies.2.1.1
  have joined : (reached f s).mship.table[x].state = .joining := (reached_state f s x).trans joining
  have recorded : (reached f s).mship.table[x].sponsor = some h.sender :=
    ((sameEntries_setSeq s.mship.table h.sender h.seq x).2.1).trans sponsored
  have unstaged : (reached f s).apply.staging = none := by
    show s.apply.staging.filter _ = none
    cases s.apply.staging with
    | none => rfl
    | some st => exact Option.filter_some_neg (by simp [f, keepsStaging])
  have run : ∀ t, applySnapCells h.sender x g recs (reached f s) = t → t.bus = (hearing f s).bus →
      isHolder t.mship.state = true → exec (.snapCellsFrame h x g recs) s = .next (t.withBus (busAfter f true s.bus)) :=
    fun t made bus acked => exec_effect (f := f) applies (by
      rw [lockEffect_snapCells rfl]
      exact congrArg some made) bus acked
  by_cases mine : x = s.straps.number
  · have filling : s.mship.state = .filling := by
      cases state : s.mship.state with
      | filling => rfl
      | member => exact absurd ((mine ▸ joining).symm.trans (ok.own.1 state)) nofun
      | leaving => exact absurd (mine ▸ joining) (ok.own.2.2.1 state)
      | _ => rw [state] at holder; cases holder
    obtain ⟨m, cs, filled, inside, outside⟩ := snapRecords_fold g recs (List.nodup_finRange 8) (w := reached f s) store.1
    have filled : applySnapRecords g recs (reached f s) = ((reached f s).withMem m).withCells cs := filled
    have inside := fun i => inside i (List.mem_finRange i)
    have outside := fun (b : CellIx) (free : ∀ i : Fin 8, groupCell g i ≠ b) => outside b fun i _ => free i
    by_cases last : g = 31
    · have made : applySnapCells h.sender x g recs (reached f s) = endOwnFill (((reached f s).withMem m).withCells cs) := by
        rw [← filled]
        exact (if_pos mine).trans ((if_pos ⟨filling, recorded⟩).trans (if_pos last))
      have ended := fillEnded_endOwnFill (((reached f s).withMem m).withCells cs)
      generalize endOwnFill (((reached f s).withMem m).withCells cs) = t at made ended
      have entry : ∀ y : Station, t.mship.table[y].state = if y = x then .member else s.mship.table[y].state := fun y => by
        rw [ended.table, mine]
        exact (makeMember_state _ y _).trans (by rw [← reached_state f s y]; rfl)
      have own : t.mship.table[x]
        = { (reached f s).mship.table[x] with state := .member, sponsor := none, joinPlace := none } := by
        rw [ended.table]
        exact mine ▸ makeMember_same x _
      refine ⟨_, run _ made ended.bus (congrArg isHolder ended.state), rfl, ended.doubt, ended.staging.trans unstaged,
        fun other => absurd mine other, fun _ _ => ?_, fun other => absurd last other,
        fun _ => ⟨congrArg MemberEntry.state own, congrArg MemberEntry.sponsor own, congrArg MemberEntry.joinPlace own,
          fun y other => (entry y).trans (if_neg other), ended.locks, ended.bundle, ended.straps, ended.pending,
          fun other => absurd mine other, fun _ _ => ⟨ended.state, fun y => ?_, fun c mem => ?_, fun k tk sole kind => ?_⟩⟩⟩
      · have cells := snapRecords_cells (ds := t.cells) inside outside fun c => by
          rw [ended.cells, getElem_map_fin, if_pos last]
          rfl
        rw [← show t.mem = m from ended.mem] at cells
        exact cells
      · refine (ended.silence y).trans (if_congr ?_ rfl rfl)
        rw [← ended.table, entry, show (((reached f s).withMem m).withCells cs).straps.number = x from mine.symm]
        exact and_congr_right fun other => by rw [if_neg other]
      · exact damaged_of_mem (ended.mends.subset mem)
      · obtain ⟨its, live, -⟩ := sole
        exact ended.joined k tk its kind live (liveKind_join its kind live only)
    · have made : applySnapCells h.sender x g recs (reached f s) = ((reached f s).withMem m).withCells cs := by
        rw [← filled]
        exact (if_pos mine).trans ((if_pos ⟨filling, recorded⟩).trans (if_neg last))
      exact ⟨_, run _ made rfl holder, rfl, rfl, unstaged, fun other => absurd mine other,
        fun _ _ => snapRecords_cells (ds := cs) inside outside fun c => by rw [if_neg last],
        fun _ => rfl, fun its => absurd its last⟩
  · by_cases last : g = 31
    · have made : applySnapCells h.sender x g recs (reached f s) = endPeerFill x (reached f s) :=
        (if_neg mine).trans (if_pos ⟨last, joined, recorded⟩)
      have ended := peerFilled_endPeerFill x (w := reached f s) ok.sponsor.1
      generalize endPeerFill x (reached f s) = t at made ended
      refine ⟨_, run _ made ended.bus ((congrArg isHolder ended.state).trans holder), rfl, ended.doubt,
        ended.staging.trans unstaged,
        fun _ => ⟨ended.mem, ended.cells⟩, fun its => absurd its mine, fun other => absurd last other,
        fun _ => ⟨?_, ?_, ?_, fun y other => ?_, ended.locks, ended.bundle, ended.straps, ended.pending,
          fun _ => ⟨ended.left, ended.state, ended.last⟩, fun its => absurd its mine⟩⟩
      · show t.mship.table[x].state = _
        rw [ended.table, makeMember_same]
      · show t.mship.table[x].sponsor = _
        rw [ended.table, makeMember_same]
      · show t.mship.table[x].joinPlace = _
        rw [ended.table, makeMember_same]
      · show t.mship.table[y].state = _
        rw [ended.table, makeMember_state, if_neg other]
        exact reached_state f s y
    · have made : applySnapCells h.sender x g recs (reached f s) = reached f s :=
        (if_neg mine).trans (if_neg fun its => last its.1)
      exact ⟨_, run _ made rfl holder, rfl, rfl, unstaged, fun _ => ⟨rfl, rfl⟩, fun its => absurd its mine,
        fun _ => rfl, fun its => absurd its last⟩

end Sys2Proof
end

section
/-! This station's own frames at their first good echo. -/

namespace Sys2Proof.Machine

open Sys2Proof.Safety

/-! ### The path of an own frame (R27, R148) -/

/-- The station at its own frame's good echo, before the Apply Unit handles it. -/
def ownHeard (sl : Slot) (s : State) : State :=
  { s with
    bus := (hearing sl.frame s).bus
    access := { s.access with reference := some s.straps.number, collisions := 0 }
    mship := { s.mship with listening := true, listen := none }
    tx := { s.tx with slot := some { sl with heard := true, gap := .repeatGap } } }

/-- The state that an own frame's effect acts on, the bus still in its carrier. -/
def ownMet (sl : Slot) (s : State) : State := { ownTaken sl s with bus := (hearing sl.frame s).bus }

theorem recordHeard_own (f : Frame) (s : State) : recordHeard true (onLine (frameBytes f)) s = hearing f s := by
  rw [recordHeard, if_pos rfl, assembled_onLine, stoppedUnframed_onLine]
  rfl

theorem meetListening_configured {w : State} (configured : w.mship.state ≠ .unconfigured) :
    meetListening w = w.withMship { w.mship with listening := true, listen := none } := if_neg configured

theorem ownEnd_eq {sl : Slot} {s : State} (unheard : sl.heard = false) (configured : s.mship.state ≠ .unconfigured) :
    ownEnd sl s = enterAckWindow false .ownGood (handleOwn sl.frame sl.ticket true (ownHeard sl s)) := by
  unfold ownEnd
  dsimp only
  rw [recordHeard_own, meetListening_configured (by exact configured), unheard]
  rfl

theorem handleOwn_first {f : Frame} {ticket : Option TicketNo} {w : State} (holder : isHolder w.mship.state = true)
    (clear : ∀ x q, w.apply.doubt ≠ .known x q) : handleOwn f ticket true w
      = (takeFrame f ticket (setDoubt .clear w)).getD (depart .outOfStep (setDoubt .clear w)) := by
  unfold handleOwn
  rw [if_pos holder]
  cases doubt : w.apply.doubt with
  | known x q => exact absurd doubt (clear x q)
  | clear => rfl
  | unknown => rfl

/-- The staging step before an own frame that breaks no bundle of its own. -/
theorem stagingStep_own {f : Frame} {w : State} (own : f.head.sender = w.straps.number)
    (quiet : (∀ st, w.apply.staging = some st → st.sender ≠ w.straps.number) ∨ keepsStaging f.body = true) :
    stagingStep f w = setStaging (w.apply.staging.filter fun st => st.sender == f.head.sender && keepsStaging f.body) w := by
  obtain quiet | keeps := quiet
  · exact stagingStep_peer quiet
  · unfold stagingStep
    cases its : w.apply.staging with
    | none => exact (setStaging_self its).symm
    | some st =>
      dsimp only
      by_cases mine : st.sender = f.head.sender
      · rw [if_pos ⟨mine, keeps⟩, Option.filter_some_pos (by rw [mine, keeps]; simp), setStaging_self its]
      · rw [if_neg fun h => mine h.1, Option.filter_some_neg (by simp [mine]), if_neg fun h => mine (h.trans own.symm)]

theorem takeFrame_own {sl : Slot} {s : State} (own : sl.frame.head.sender = s.straps.number)
    (listed : s.mship.table[s.straps.number].state ≠ .absent)
    (quiet : NoOwnStaging s ∨ keepsStaging sl.frame.body = true) :
    takeFrame sl.frame sl.ticket (setDoubt .clear (ownHeard sl s))
      = effect sl.frame sl.ticket (lockEffect sl.frame (ownMet sl s)) := by
  have sender : isTableSender (setDoubt .clear (ownHeard sl s)).mship.table sl.frame.head.sender = true := by
    rw [own]
    exact bne_iff_ne.2 listed
  have recorded : recordSeq sl.frame.head.sender sl.frame.head.seq (setDoubt .clear (ownHeard sl s))
      = setStaging s.apply.staging (ownMet sl s) := by
    unfold recordSeq
    rw [if_pos sender, own]
    rfl
  rw [takeFrame, recorded, stagingStep_own (by rw [lockEffect_straps]; exact own) (quiet.imp_left fun quiet st its => by
    rw [lockEffect_apply] at its
    rw [lockEffect_straps]
    exact quiet st its), lockEffect_apply, lockEffect_setStaging, own]
  rfl

theorem enterAckWindow_own {f : Frame} {s t : State} (bus : t.bus = (hearing f s).bus) :
    enterAckWindow false .ownGood t = t.withBus (busAfterOwn f s.bus) := by
  have its : (enterAckWindow false .ownGood t).bus = busAfterOwn f s.bus := by
    unfold busAfterOwn
    rw [← enterAckWindow_hearing f false s]
    unfold enterAckWindow
    rw [bus]
    rfl
  rw [← its]
  rfl

/-- An own frame at its first good echo, that breaks no bundle of its own. -/
theorem exec_own {sl : Slot} {s t : State} (echo : OwnEcho sl s) (quiet : NoOwnStaging s ∨ keepsStaging sl.frame.body = true)
    (made : effect sl.frame sl.ticket (lockEffect sl.frame (ownMet sl s)) = some t)
    (bus : t.bus = (hearing sl.frame s).bus) :
    exec (frameCommand sl.frame) s = .next (t.withBus (busAfterOwn sl.frame s.bus)) := by
  obtain ⟨free, sending, slot, unheard, state, own, clear, listed⟩ := echo
  have holder : isHolder s.mship.state = true := by
    obtain state | state := state <;> rw [state] <;> rfl
  have ended : carrierEnd sl.frame s = ownEnd sl s := by
    rw [carrierEnd, sending]
    dsimp only
    rw [slot]
    exact if_pos rfl
  rw [exec_frameCommand, atEvent_free _ free, ended, ownEnd_eq unheard (holder_configured holder),
    handleOwn_first (w := ownHeard sl s) holder clear, takeFrame_own own listed quiet, made]
  exact congrArg _ (enterAckWindow_own bus)

end Sys2Proof.Machine
end

section
/-! The effects of this station's own frames. -/

namespace Sys2Proof.Machine

open Sys2Proof.Safety

/-! ### CLAIM and YIELD (R38 to R41, R47, R50) -/

theorem ownClaim_free {w : State} {r : Region} {k : TicketNo} {tk : Ticket}
    (member : w.mship.table[w.straps.number].state = .member) (free : w.locks[r].holder = none) (sole : SoleLive k tk w.port)
    (kind : tk.kind = .claim) (arg : tk.arg = .region r) : applyClaim w.straps.number r w
      = (w.withLocks (w.locks.set r.val { w.locks[r] with holder := some w.straps.number })).withPort
          (completed k tk .granted w.port) := by
  have entry : claimEntry w.straps.number w.locks[r] = { w.locks[r] with holder := some w.straps.number } := by
    rw [claimEntry, free]
  have holds : holdsRegion r (w.withLocks (w.locks.set r.val { w.locks[r] with holder := some w.straps.number }))
    = true := by
    refine beq_iff_eq.2 ?_
    show (w.locks.set r.val _)[r].holder = _
    rw [getElem_set_fin, if_pos rfl]
    rfl
  rw [applyClaim, if_pos ((isMember_iff _ _).2 member)]
  dsimp only
  rw [entry, if_pos ⟨rfl, holds⟩, ← kind]
  exact completeFor_sole .granted (s := w.withLocks _) sole arg

theorem ownClaim_waits {w : State} {r : Region} (member : w.mship.table[w.straps.number].state = .member)
    (held : w.locks[r].holder ≠ none) (other : w.locks[r].holder ≠ some w.straps.number)
    (new : w.straps.number ∉ w.locks[r].waiters) : applyClaim w.straps.number r w
      = w.withLocks (w.locks.set r.val { w.locks[r] with waiters := w.locks[r].waiters ++ [w.straps.number] }) := by
  have entry : claimEntry w.straps.number w.locks[r]
      = { w.locks[r] with waiters := w.locks[r].waiters ++ [w.straps.number] } := by
    unfold claimEntry
    split
    · exact absurd ‹_› held
    · rename_i y its
      refine if_neg fun h => ?_
      obtain rfl | waits := h
      · exact other its
      · exact new waits
  rw [applyClaim, if_pos ((isMember_iff _ _).2 member)]
  dsimp only
  rw [entry]
  refine if_neg fun own => ?_
  have holds := beq_iff_eq.1 own.2
  have holds : (w.locks.set r.val { w.locks[r] with waiters := w.locks[r].waiters ++ [w.straps.number] })[r].holder
    = some w.straps.number := holds
  rw [getElem_set_fin, if_pos rfl] at holds
  exact other holds

theorem ownYield_release {w : State} {r : Region} {k : TicketNo} {tk : Ticket} (used : w.port.tickets[k] = some tk)
    (live : tk.state ≠ .done) (kind : tk.kind ≠ .withdraw) : applyOwnYield (some k) r w
      = (w.withLocks (w.locks.set r.val (yieldEntry w.straps.number w.locks[r]))).withPort
        (completed k tk .done w.port) := by
  rw [applyOwnYield, completeYield]
  rw [show (w.withLocks (w.locks.set r.val (yieldEntry (self w) w.locks[r]))).port = w.port from rfl, used]
  dsimp only
  rw [if_neg kind]
  exact complete_completed (s := w.withLocks _) used live

theorem ownYield_holder {w : State} {r : Region} {k : TicketNo} {tk : Ticket} (used : w.port.tickets[k] = some tk)
    (live : tk.state ≠ .done) (kind : tk.kind = .withdraw) (held : w.locks[r].holder = some w.straps.number) :
    applyOwnYield (some k) r w = (w.withLocks (w.locks.set r.val (yieldEntry w.straps.number w.locks[r]))).withPort
      (completed k tk .released w.port) := by
  rw [applyOwnYield, completeYield]
  rw [show (w.withLocks (w.locks.set r.val (yieldEntry (self w) w.locks[r]))).port = w.port from rfl, used]
  dsimp only
  rw [if_pos kind, if_pos (show holdsRegion r w = true from beq_iff_eq.2 held)]
  exact complete_completed (s := w.withLocks _) used live

theorem ownYield_waiter {w : State} {r : Region} {k j : TicketNo} {tk u : Ticket} (used : w.port.tickets[k] = some tk)
    (live : tk.state ≠ .done) (kind : tk.kind = .withdraw) (other : w.locks[r].holder ≠ some w.straps.number)
    (sole : SoleLive j u w.port) (claim : u.kind = .claim) (arg : u.arg = .region r) :
    applyOwnYield (some k) r w = (w.withLocks (w.locks.set r.val (yieldEntry w.straps.number w.locks[r]))).withPort
      (completed k tk .done (completed j u .withdrawn w.port)) := by
  have apart : k ≠ j := fun same => by
    have := Option.some.inj (used.symm.trans (same ▸ sole.1))
    rw [this, claim] at kind
    cases kind
  have still : (completed j u .withdrawn w.port).tickets[k] = some tk :=
    (getElem_set_fin _ _ _ _).trans ((if_neg apart).trans used)
  have first : completeFor .claim r .withdrawn (w.withLocks (w.locks.set r.val (yieldEntry w.straps.number w.locks[r])))
      = (w.withLocks (w.locks.set r.val (yieldEntry w.straps.number w.locks[r]))).withPort
        (completed j u .withdrawn w.port) := by
    rw [← claim]
    exact completeFor_sole .withdrawn (s := w.withLocks _) sole arg
  rw [applyOwnYield, completeYield]
  rw [show (w.withLocks (w.locks.set r.val (yieldEntry (self w) w.locks[r]))).port = w.port from rfl, used]
  dsimp only
  rw [if_pos kind, if_neg (by rw [holdsRegion, self, beq_eq_false_iff_ne.2 other]; nofun)]
  exact (congrArg (complete k .done) first).trans
    (complete_completed (s := (w.withLocks _).withPort (completed j u .withdrawn w.port)) still live)

/-! ### LEAVE (R43, R88, R101) -/

/-- A station that gives up its own locks is granted nothing. -/
theorem releaseLocks_own {w : State} (ok : LocksOk w.mship.table w.locks) :
    releaseLocks w.straps.number w = w.withLocks (w.locks.map (yieldEntry w.straps.number)) := by
  have none : grantedSince w.locks (w.withLocks (w.locks.map (yieldEntry w.straps.number))) = [] := by
    rw [List.eq_nil_iff_forall_not_mem]
    intro r granted
    exact (freeOf_yieldAll ok w.straps.number r).1 (mem_grantedSince.1 granted).1
  rw [releaseLocks, completeGrants, none]
  rfl

/-- The table once this station's joiners are handed on, or have gone with it (R82, R95). -/
def handedOn (n : Station) (t : Vector MemberEntry 16) : Vector MemberEntry 16 :=
  match lowestMember t with
  | some z => t.map (responsor n z)
  | none => (joinersOf n t).foldl (fun t x => makeAbsent x t) t

theorem reassign_self {w : State} (no : w.mship.table[w.straps.number].state ≠ .member) : reassign w.straps.number w
    = (changeTable (handedOn w.straps.number w.mship.table) w).withSponsor { joiners := [], cursor := 0 } := by
  unfold reassign handedOn
  dsimp only
  rw [if_pos (show w.straps.number = self w from rfl)]
  dsimp only [State.withSponsor_mship]
  cases lowest : lowestMember w.mship.table with
  | none => rfl
  | some z =>
    have other : ¬ z = self (w.withSponsor { joiners := [], cursor := 0 }) := by
      rintro rfl
      exact no (lowestMember_some lowest)
    exact if_neg other

theorem foldl_makeAbsent_absent (xs : List Station) {t : Vector MemberEntry 16} {y : Station} (gone : t[y] = absentEntry) :
    (xs.foldl (fun t x => makeAbsent x t) t)[y] = absentEntry := by
  induction xs generalizing t with
  | nil => exact gone
  | cons x xs ih =>
    refine ih ?_
    show (makeAbsent x t)[y] = absentEntry
    rw [makeAbsent, leaveJoinOrder_getElem, gone]
    split <;> rfl

theorem foldl_makeAbsent_member (xs : List Station) {t : Vector MemberEntry 16} {y : Station} (no : t[y].state ≠ .member) :
    (xs.foldl (fun t x => makeAbsent x t) t)[y].state ≠ .member := by
  rw [foldl_makeAbsent_state]
  split
  · nofun
  · exact no

theorem handedOn_gone {n y : Station} {t : Vector MemberEntry 16} (gone : t[y] = absentEntry) :
    (handedOn n t)[y] = absentEntry := by
  unfold handedOn
  split
  · rw [getElem_map_fin, gone]
    rfl
  · exact foldl_makeAbsent_absent _ gone

theorem handedOn_some {n z : Station} {t : Vector MemberEntry 16} (member : t[z].state = .member) :
    ∃ z, handedOn n t = t.map (responsor n z) := by
  obtain ⟨y, lowest⟩ := lowestMember_isSome member
  refine ⟨y, ?_⟩
  rw [handedOn, lowest]

theorem handedOn_none {n : Station} {t : Vector MemberEntry 16} (no : ∀ y : Station, t[y].state ≠ .member) (y : Station) :
    (handedOn n t)[y].state ≠ .member := by
  unfold handedOn
  split
  · rw [getElem_map_fin, responsor_state]
    exact no y
  · exact foldl_makeAbsent_member _ (no y)

/-- What this station's own LEAVE leaves at its echo. -/
structure OwnLeft (w t : State) : Prop where
  locks : ∀ r : Region, t.locks[r] = yieldEntry w.straps.number w.locks[r]
  table : t.mship.table = handedOn w.straps.number (makeAbsent w.straps.number w.mship.table)
  sponsor : t.sponsor = { joiners := [], cursor := 0 }
  port : t.port = w.port
  state : t.mship.state = w.mship.state
  bus : t.bus = w.bus
  access : t.access = w.access
  tx : t.tx = w.tx
  mem : t.mem = w.mem
  cells : t.cells = w.cells
  bundle : t.bundle = w.bundle
  mend : t.mend = w.mend
  staging : t.apply.staging = w.apply.staging
  doubt : t.apply.doubt = w.apply.doubt

theorem applyOwnLeave_left {w v : State} (yielded : v = w.withLocks (w.locks.map (yieldEntry w.straps.number))) :
    OwnLeft w (applyOwnLeave v) := by
  have straps : v.straps.number = w.straps.number := by rw [yielded]; rfl
  have table : v.mship.table = w.mship.table := by rw [yielded]; rfl
  have handed : applyOwnLeave v = (changeTable (handedOn w.straps.number (makeAbsent w.straps.number w.mship.table))
      (changeTable (makeAbsent w.straps.number w.mship.table) v)).withSponsor { joiners := [], cursor := 0 } := by
    rw [← straps, ← table]
    refine reassign_self (w := changeTable (makeAbsent v.straps.number v.mship.table) v) fun is => ?_
    have state := (makeAbsent_state v.straps.number v.straps.number v.mship.table).symm.trans is
    rw [if_pos rfl] at state
    cases state
  rw [handed, yielded]
  exact ⟨fun r => getElem_map_fin _ _ _, rfl, rfl, rfl, rfl, rfl, rfl, rfl, rfl, rfl, rfl, rfl, rfl, rfl⟩

/-- This station's own LEAVE at its echo. -/
theorem effect_ownLeave {f : Frame} {ticket : Option TicketNo} {w : State} (body : f.body = .leave)
    (own : f.head.sender = w.straps.number) (member : w.mship.table[w.straps.number].state = .member)
    (ok : LocksOk w.mship.table w.locks) : ∃ t, effect f ticket (lockEffect f w) = some t ∧ OwnLeft w t := by
  have its : isMember w.mship.table w.straps.number = true := (isMember_iff _ _).2 member
  have locked : lockEffect f w = w.withLocks (w.locks.map (yieldEntry w.straps.number)) := by
    rw [lockEffect, body, own]
    exact (if_pos its).trans (releaseLocks_own ok)
  refine ⟨_, ?_, applyOwnLeave_left locked⟩
  have known : isMember (lockEffect f w).mship.table w.straps.number = true := by
    rw [lockEffect_mship]
    exact its
  have here : w.straps.number = self (lockEffect f w) := by
    rw [self, lockEffect_straps]
  rw [effect, body, own]
  dsimp only
  rw [applyLeave, if_pos known, if_pos here]

/-! ### The last SNAPCELLS of a fill (R101, R105) -/

/-- What the end of the fill of this station's head joiner leaves. -/
structure HeadFilled (x : Station) (rest : List Station) (w t : State) : Prop where
  table : t.mship.table = makeMember x w.mship.table
  sponsor : t.sponsor = { joiners := rest, cursor := 0 }
  room : w.port.notices.length + reserved w.port < 32 → t.port = { w.port with notices := w.port.notices ++ [.memberIn x] }
  full : 32 ≤ w.port.notices.length + reserved w.port → t.port = { w.port with noticesDropped := true }
  state : t.mship.state = w.mship.state
  silence : t.mship.silence = w.mship.silence
  bus : t.bus = w.bus
  access : t.access = w.access
  tx : t.tx = w.tx
  mem : t.mem = w.mem
  cells : t.cells = w.cells
  locks : t.locks = w.locks
  bundle : t.bundle = w.bundle
  mend : t.mend = w.mend

theorem endPeerFill_head {x : Station} {rest : List Station} {w : State} (head : w.sponsor.joiners = x :: rest) :
    HeadFilled x rest w (endPeerFill x w) := by
  have forgot : sponsorForget x (changeTable (makeMember x w.mship.table) w)
      = (changeTable (makeMember x w.mship.table) w).withSponsor { joiners := rest, cursor := 0 } := by
    unfold sponsorForget
    rw [show (changeTable (makeMember x w.mship.table) w).sponsor = w.sponsor from rfl, head]
    exact if_pos rfl
  have posted : endPeerFill x w = postNotice (.memberIn x)
      ((changeTable (makeMember x w.mship.table) w).withSponsor { joiners := rest, cursor := 0 }) := by
    rw [← forgot]
    rfl
  rw [posted]
  by_cases room : w.port.notices.length + reserved w.port < 32
  · rw [postNotice_room (s := (changeTable (makeMember x w.mship.table) w).withSponsor { joiners := rest, cursor := 0 })
      (roomFree_true room)]
    exact ⟨rfl, rfl, fun _ => rfl, fun full => by omega, rfl, rfl, rfl, rfl, rfl, rfl, rfl, rfl, rfl, rfl⟩
  · rw [postNotice_full (s := (changeTable (makeMember x w.mship.table) w).withSponsor { joiners := rest, cursor := 0 })
      (roomFree_false (p := w.port) (by omega))]
    exact ⟨rfl, rfl, fun free => absurd free room, fun _ => rfl, rfl, rfl, rfl, rfl, rfl, rfl, rfl, rfl, rfl, rfl⟩

theorem makeMember_other {x y : Station} {t : Vector MemberEntry 16} (other : y ≠ x) :
    (makeMember x t)[y] = { t[y] with joinPlace := t[y].joinPlace.map (placeAfter t[x].joinPlace) } := by
  rw [makeMember, leaveJoinOrder_getElem, if_neg other]

/-! ### The last fragment of a bundle (R64, R68 to R70) -/

/-- The last fragment, beginning its bundle or ending what is staged, comes to the commit point. -/
theorem applyWrite_ends {x : Station} {w : WriteBody} {recs : List WriteRecord} {u : State} (last : w.index + 1 = w.count)
    (its : (u.apply.staging = none ∧ w.index = 0 ∧ recs = w.records)
      ∨ ∃ st, u.apply.staging = some st ∧ w.index = st.expected ∧ w.count = st.count ∧ recs = st.records ++ w.records) :
    applyWrite x w u = commitPoint x recs (setStaging none u) := by
  obtain ⟨none, first, rfl⟩ | ⟨st, some, expected, count, rfl⟩ := its
  · rw [applyWrite, none]
    dsimp only
    rw [if_pos first]
    exact if_pos last
  · rw [applyWrite, some]
    dsimp only
    rw [if_pos ⟨expected, count⟩]
    exact if_pos last

theorem completeCommit_live {u : State} {b : Outgoing} {tk : Ticket} (o : Completion) (outgoing : u.bundle.outgoing = some b)
    (used : u.port.tickets[b.ticket] = some tk) (live : tk.state ≠ .done) : completeCommit o u
      = (u.withPort (completed b.ticket tk o u.port)).withBundle { u.bundle with outgoing := none } := by
  rw [completeCommit, outgoing]
  exact congrArg (fun v : State => v.withBundle { u.bundle with outgoing := none }) (complete_completed used live)

/-- What this station's own bundle leaves where it passes both checks. -/
structure OwnWritten (recs : List WriteRecord) (b : Outgoing) (tk : Ticket) (u t : State) : Prop where
  inside : ∀ r ∈ recs, cellData t.mem r.cell = r.data ∧ t.cells[r.cell] = writtenCell u r
  outside : ∀ x : CellIx, (∀ r ∈ recs, r.cell ≠ x) → cellData t.mem x = cellData u.mem x ∧ t.cells[x] = u.cells[x]
  grown : Grown (completed b.ticket tk .applied u.port) t.port
  gone : u.mend.cells.Nodup → ∀ r ∈ recs, r.cell ∉ t.mend.cells
  bus : t.bus = u.bus
  tx : { t.tx with mend := u.tx.mend } = u.tx
  rest : { t with mem := u.mem, cells := u.cells, port := u.port, mend := u.mend, tx := u.tx }
    = { u with bundle := { u.bundle with outgoing := none } }

/-- The state after this station's own bundle, by what it may have changed. -/
def afterBundle (m : Memory) (cs : Vector CellRec 256) (p : HostPort) (mend : MendUnit) (e : Option MendEntry)
    (u : State) : State :=
  { u with
    mem := m
    cells := cs
    port := p
    bundle := { u.bundle with outgoing := none }
    mend := mend
    tx := { u.tx with mend := e } }

theorem commitPoint_own {u : State} {recs : List WriteRecord} {b : Outgoing} {tk : Ticket}
    (outgoing : u.bundle.outgoing = some b) (used : u.port.tickets[b.ticket] = some tk) (live : tk.state ≠ .done)
    (held : ∀ r ∈ recs, u.locks[regionOf r.cell].holder = some u.straps.number)
    (accepted : ∀ r ∈ recs, versionAccepted u r = true) (law : Memory.wf u.mem) (once : (recs.map (·.cell)).Nodup) :
    ∃ t, commitPoint u.straps.number recs u = some t ∧ OwnWritten recs b tk u t := by
  obtain ⟨m, cs, written, inside, outside⟩ := writeRecords law once
  have done := completeCommit_live (u := (u.withMem m).withCells cs) .applied outgoing used live
  obtain ⟨p, mend, e, eq, grown, gone⟩ := mendAfterWrite_changes recs
    ((((u.withMem m).withCells cs).withPort (completed b.ticket tk .applied u.port)).withBundle
      { u.bundle with outgoing := none })
  have after : mendAfterWrite recs (completeCommit .applied ((u.withMem m).withCells cs)) = afterBundle m cs p mend e u :=
    (congrArg (mendAfterWrite recs) done).trans eq
  have made : commitPoint u.straps.number recs u = some (afterBundle m cs p mend e u) := by
    rw [commitPoint_writes held accepted, if_pos (show u.straps.number = self u from rfl), written, after]
  exact ⟨afterBundle m cs p mend e u, made, inside, outside, grown, gone, rfl, rfl, rfl⟩

end Sys2Proof.Machine
end

section
/-! What this station's own frames leave at their echo. -/

namespace Sys2Proof.Machine

open Sys2Proof.Safety

theorem ownMet_entry (sl : Slot) (s : State) (y : Station) : (ownMet sl s).mship.table[y]
    = if y = s.straps.number then
      { s.mship.table[s.straps.number] with lastSeq := sl.frame.head.seq } else s.mship.table[y] :=
  getElem_set_fin _ _ _ _

theorem ownMet_state (sl : Slot) (s : State) (y : Station) :
    (ownMet sl s).mship.table[y].state = s.mship.table[y].state := by
  rw [ownMet_entry]
  split
  · rename_i its
    rw [its]
  · rfl

theorem claimCommand {f : Frame} {r : Region} (body : f.body = .claim r) : frameCommand f = .claimFrame f.head r := by
  rw [frameCommand, body]

theorem yieldCommand {f : Frame} {r : Region} (body : f.body = .yield r) : frameCommand f = .yieldFrame f.head r := by
  rw [frameCommand, body]

/-- Own CLAIMs (R38, R39). -/
theorem exec_ownClaim {sl : Slot} {s : State} {r : Region} (echo : OwnEcho sl s) (quiet : NoOwnStaging s)
    (body : sl.frame.body = .claim r) {l : Vector RegionEntry 16} {p : HostPort}
    (made : applyClaim s.straps.number r (ownMet sl s) = ((ownMet sl s).withLocks l).withPort p) :
    exec (.claimFrame sl.frame.head r) s = .next { ownTaken sl s with locks := l, port := p } := by
  have own : sl.frame.head.sender = s.straps.number := echo.2.2.2.2.2.1
  rw [← claimCommand body]
  refine exec_own (t := ((ownMet sl s).withLocks l).withPort p) echo (.inl quiet) ?_ rfl
  rw [lockEffect, body, effect, body]
  dsimp only
  rw [own, made]

/-- Own YIELDs (R40, R47, R50). -/
theorem exec_ownYield {sl : Slot} {s : State} {r : Region} (echo : OwnEcho sl s) (quiet : NoOwnStaging s)
    (body : sl.frame.body = .yield r) {l : Vector RegionEntry 16} {p : HostPort}
    (made : applyOwnYield sl.ticket r (ownMet sl s) = ((ownMet sl s).withLocks l).withPort p) :
    exec (.yieldFrame sl.frame.head r) s = .next { ownTaken sl s with locks := l, port := p } := by
  have own : sl.frame.head.sender = s.straps.number := echo.2.2.2.2.2.1
  rw [← yieldCommand body]
  refine exec_own (t := ((ownMet sl s).withLocks l).withPort p) echo (.inl quiet) ?_ rfl
  have unlocked : lockEffect sl.frame (ownMet sl s) = ownMet sl s := by
    rw [lockEffect, body]
    exact if_pos own
  rw [unlocked, effect, body]
  exact congrArg some ((if_pos own).trans made)

/-- A quiet station's own claim leaves its Apply Unit as it was. -/
theorem ownTaken_apply {sl : Slot} {s : State} (doubt : s.apply.doubt = .clear) (staging : s.apply.staging = none) :
    (ownTaken sl s).apply = s.apply := by
  show ({ s.apply with
    doubt := .clear
    staging := s.apply.staging.filter fun st =>
      st.sender == s.straps.number && keepsStaging sl.frame.body } : ApplyUnit) = s.apply
  rw [staging, ← doubt]
  exact congrArg (fun st => { s.apply with staging := st }) staging.symm

/-- What this station's own LEAVE leaves (R43, R88, R101). -/
theorem ownLeave_leaves {n : Station} {t : Vector MemberEntry 16} (place : t[n].joinPlace = none) :
    (handedOn n (makeAbsent n t))[n] = absentEntry
      ∧ (∀ y : Station, y ≠ n → t[y].state = .member → (handedOn n (makeAbsent n t))[y] = t[y])
      ∧ ((∃ z, z ≠ n ∧ t[(z : Station)].state = .member) → ∀ y : Station, y ≠ n →
          (handedOn n (makeAbsent n t))[y].state = t[y].state)
      ∧ ((∀ z, z ≠ n → t[(z : Station)].state ≠ .member) → ∀ y : Station,
        (handedOn n (makeAbsent n t))[y].state ≠ .member) := by
  have entry := makeAbsent_member place
  have still : ∀ z, z ≠ n → t[(z : Station)].state = .member
    → (makeAbsent n t)[z].state = .member := fun z other member => by
    rw [entry, if_neg other]
    exact member
  refine ⟨handedOn_gone ((entry n).trans (if_pos rfl)), fun y other member => ?_, fun ⟨z, other, member⟩ y apart => ?_,
    fun no y => handedOn_none (fun z => ?_) y⟩
  · obtain ⟨z, handed⟩ := handedOn_some (n := n) (still y other member)
    rw [handed, getElem_map_fin, entry, if_neg other]
    exact if_neg fun its => nomatch (show EntryState.member = .joining from member.symm.trans its.1)
  · obtain ⟨z', handed⟩ := handedOn_some (n := n) (still z other member)
    rw [handed, getElem_map_fin, responsor_state, entry, if_neg apart]
  · rw [entry]
    split
    · nofun
    · exact no z ‹_›

end Sys2Proof.Machine

namespace Sys2Proof

open Sys2Proof.Machine Sys2Proof.Safety

/-- Settles O39: each own frame by the effect of its kind. -/
theorem ownClaimGranted : Obligations.OwnClaimGranted := by
  refine ⟨fun s sl r k tk free sending slot unheard state body own doubt staging member empty sole kind arg => ?_,
    fun s sl echo => ?_⟩
  · have listed : s.mship.table[s.straps.number].state ≠ .absent := fun absent => nomatch absent.symm.trans member
    have clear : ∀ x q, s.apply.doubt ≠ .known x q := fun x q => by
      rw [doubt]
      nofun
    have echo : OwnEcho sl s := ⟨free, sending, slot, unheard, .inl state, own, clear, listed⟩
    have quiet : NoOwnStaging s := fun st its => nomatch staging.symm.trans its
    refine (exec_ownClaim echo quiet body
      (ownClaim_free (w := ownMet sl s) ((ownMet_state sl s _).trans member) empty sole kind
      arg)).trans ?_
    have same := ownTaken_apply (sl := sl) doubt staging
    exact congrArg (fun a => Host.Outcome.next { ownTaken sl s with
      locks := s.locks.set r.val { s.locks[r] with holder := some s.straps.number }
      port := completed k tk .granted s.port
      apply := a }) same
  intro n done
  have own : sl.frame.head.sender = s.straps.number := echo.2.2.2.2.2.1
  refine ⟨fun quiet member =>
    ⟨fun r body held other new => ?_, ?_, fun body law leaving => ?_, fun x recs rest body law head => ?_⟩,
    ?_⟩
  · exact exec_ownClaim echo quiet body (p := s.port)
      (ownClaim_waits (w := ownMet sl s) ((ownMet_state sl s _).trans member) held other new)
  · intro r k tk body rides used live passed
    refine ⟨fun kind => ?_, fun kind held => ?_, fun j u kind other sole claim arg => ?_⟩
    · exact exec_ownYield echo quiet body (by
        rw [rides]
        exact ownYield_release (w := ownMet sl s) used live (by rw [kind]; nofun))
    · exact exec_ownYield echo quiet body (by
        rw [rides]
        exact ownYield_holder (w := ownMet sl s) used live kind held)
    · exact exec_ownYield echo quiet body (by
        rw [rides]
        exact ownYield_waiter (w := ownMet sl s) used live kind other sole claim arg)
  · have ok := (groupLaw_iff s).1 law
    have state := ownMet_state sl s
    obtain ⟨t, made, left⟩ := effect_ownLeave (w := ownMet sl s) (ticket := sl.ticket) body own ((state _).trans member)
      (ok.locks.of_members fun y its => .inl ((state y).trans its))
    have run := exec_own echo (.inl quiet) made left.bus
    have after := frame_groupOk law run
    have place : (ownMet sl s).mship.table[n].joinPlace = none := by
      rw [ownMet_entry, if_pos rfl]
      exact (ok.table.others n (by rw [member]; nofun)).2
    obtain ⟨gone, kept, states, empty⟩ := ownLeave_leaves place
    rw [← show t.mship.table = handedOn n (makeAbsent n (ownMet sl s).mship.table) from left.table] at gone kept states empty
    have command : frameCommand sl.frame = .leaveFrame sl.frame.head := by rw [frameCommand, body]
    rw [command] at run
    have unstaged : (ownMet sl s).apply.staging = none := by
      show s.apply.staging.filter _ = none
      rw [body]
      cases s.apply.staging with
      | none => rfl
      | some st => exact Option.filter_some_neg (by simp [keepsStaging])
    refine ⟨_, run, left.locks, gone, fun y other => ⟨fun its => ?_, ?_⟩, fun ⟨z, other, its⟩ y apart => ?_,
      fun no y => ?_, left.sponsor, left.port, left.state.trans leaving, rfl, left.access, left.tx, left.mem, left.cells,
      left.bundle, left.mend, left.staging.trans unstaged, left.doubt⟩
    · exact (kept y other ((state y).trans its)).trans ((ownMet_entry sl s y).trans (if_neg other))
    · exact after.sponsor_ne (fun is => nomatch (congrArg MemberEntry.state gone).symm.trans is) y
    · exact (states ⟨z, other, (state z).trans its⟩ y apart).trans (state y)
    · have no_member := empty fun z other is => no z other ((state z).symm.trans is)
      cases its : t.mship.table[y].state with
      | absent => exact its
      | member => exact absurd its (no_member y)
      | joining =>
        obtain ⟨z, -, member⟩ := after.table.sponsored y its
        exact absurd (member.resolve_right nofun) (no_member z)
  · have ok := (groupLaw_iff s).1 law
    have state := ownMet_state sl s
    obtain ⟨joining, sponsor⟩ := (ok.sponsor.2 x).1 (head ▸ List.mem_cons_self)
    have other : x ≠ n := by
      rintro rfl
      exact nomatch member.symm.trans joining
    have entry : ∀ y : Station, y ≠ n → (ownMet sl s).mship.table[y] = s.mship.table[y] := fun y apart =>
      (ownMet_entry sl s y).trans (if_neg apart)
    have filled := endPeerFill_head (w := ownMet sl s) head
    have made : effect sl.frame sl.ticket (lockEffect sl.frame (ownMet sl s)) = some (endPeerFill x (ownMet sl s)) := by
      rw [lockEffect_snapCells body, effect, body]
      refine congrArg some ((if_neg other).trans (if_pos ⟨rfl, ?_, ?_⟩))
      · exact (state x).trans joining
      · rw [entry x other, own]
        exact sponsor
    generalize endPeerFill x (ownMet sl s) = t at made filled
    have run := exec_own echo (.inl quiet) made filled.bus
    have command : frameCommand sl.frame = .snapCellsFrame sl.frame.head x 31 recs := by rw [frameCommand, body]
    rw [command] at run
    have mine : t.mship.table[x] = { s.mship.table[x] with state := .member, sponsor := none, joinPlace := none } := by
      rw [filled.table, makeMember_same, entry x other]
    have others : ∀ y : Station, y ≠ x → t.mship.table[y].state = s.mship.table[y].state
        ∧ t.mship.table[y].sponsor = s.mship.table[y].sponsor := fun y apart => by
      rw [filled.table, makeMember_other apart]
      exact ⟨state y, (sameEntries_setSeq s.mship.table n sl.frame.head.seq y).2.1⟩
    exact ⟨_, run, congrArg MemberEntry.state mine, congrArg MemberEntry.sponsor mine, congrArg MemberEntry.joinPlace mine,
      others, filled.sponsor, filled.room, filled.full, filled.state, filled.silence, rfl, filled.access, filled.tx,
        filled.mem,
      filled.cells, filled.locks, filled.bundle, filled.mend⟩
  · intro w recs b tk body last its outgoing used live after
    have keeps : keepsStaging sl.frame.body = true := by rw [body]; rfl
    have command : frameCommand sl.frame = .writeFrame sl.frame.head w := by rw [frameCommand, body]
    have staged : (ownMet sl s).apply.staging = s.apply.staging.filter (·.sender == n) := by
      show s.apply.staging.filter _ = _
      rw [keeps]
      simp only [Bool.and_true]
      rfl
    have commits : effect sl.frame sl.ticket (lockEffect sl.frame (ownMet sl s))
        = commitPoint n recs (setStaging none (ownMet sl s)) := by
      have unlocked : lockEffect sl.frame (ownMet sl s) = ownMet sl s := by rw [lockEffect, body]
      rw [unlocked, effect, body]
      dsimp only
      rw [own]
      refine applyWrite_ends last ?_
      rw [staged]
      obtain ⟨first, quiet, its⟩ | ⟨st, some, sender, its⟩ := its
      · exact .inl ⟨filter_fresh quiet, first, its⟩
      · exact .inr ⟨st, filter_kept some sender, its⟩
    refine ⟨fun missing => ?_, fun good law once listed => ?_⟩
    · rw [← command]
      refine exec_own (t := ((setStaging none (ownMet sl s)).withPort (completed b.ticket tk .refused s.port)).withBundle
        { s.bundle with outgoing := none }) echo (.inr keeps) ?_ rfl
      rw [commits, commitPoint_refuses (s := setStaging none (ownMet sl s)) missing]
      exact congrArg some ((if_pos rfl).trans
        (completeCommit_live (u := setStaging none (ownMet sl s)) .refused outgoing used live))
    · obtain ⟨t, made, wrote⟩ := commitPoint_own (u := setStaging none (ownMet sl s)) (recs := recs) outgoing used live
        (fun r mem => (good r mem).1) (fun r mem => versionAccepted_of (.inr (good r mem).2)) law.1 once
      have run := exec_own echo (.inr keeps) (commits.trans made) wrote.bus
      rw [command] at run
      refine ⟨_, run, fun r mem => ⟨(wrote.inside r mem).1, (wrote.inside r mem).2.trans ?_⟩, wrote.outside,
        wrote.grown.tickets,
        wrote.grown.notices, wrote.gone listed, wrote.tx,
        congrArg (fun v : State => v.withBus (busAfterOwn sl.frame s.bus)) wrote.rest⟩
      refine (writtenCell_eq _ r).trans ?_
      rw [if_neg fun filling => ?_]
      · rfl
      · obtain ⟨-, -, -, -, state, -⟩ := echo
        obtain state | state := state <;> exact nomatch state.symm.trans filling

end Sys2Proof
end

end
